-- ==== Sys2Proof/Word.lean ====
section
/-! DEFINITION. The word and byte types of the block (20_memory R63, 10_state R40) and the plainest
arithmetic on them. -/

namespace Sys2Proof

/-- A stream byte, and an entry of IBUF. -/
abbrev Byte := BitVec 8

/-- A register and a bus word: 32 bits (00_scope R6). -/
abbrev Word := BitVec 32

/-- Pseudocode arithmetic is on natural numbers (00_scope R18); a register write takes the number's
low 32 bits. In a state that meets the invariant no register write truncates (R18). -/
abbrev Word.ofN (n : Nat) : Word := BitVec.ofNat 32 n

end Sys2Proof
end

