-- ==== Sys2Proof/Syntax.lean ====
section
/-! DEFINITION. The block's commands (30_encoding R81), the bus accesses that carry them
(20_memory R63), what may come to the block next, and the host-program notation of 30_encoding R99. -/

namespace Sys2Proof

/-- One constructor per row of the opcode map (30_encoding R81). A command word has no operand field:
bits 31:8 are ignored (R80), and the operand, where there is one, is the ARG register (R83). -/
inductive Instr where
  | nalNext
  | adtsNext
  | flvHeader
  | flvNextTag
  | rtpParse
  | tsNext
  | seek
  | advance
  | compact
  | softReset
deriving DecidableEq, Repr

/-- The width of a bus access. Only `word` exists on the bus; the others are refused (20_memory R65 (b)). -/
inductive AccessWidth where
  | byte
  | half
  | word
deriving DecidableEq, Repr

/-- One bus access of the host, at a byte offset from the block's base (20_memory R60, R63). -/
inductive BusAccess where
  | read (width : AccessWidth) (offset : Word)
  | write (width : AccessWidth) (offset value : Word)
deriving DecidableEq, Repr

/-- What comes to the block next. The queue of these in State is the environment (log 1, 2):
the host's accesses and waits in issue order, the moments at which the engine gets its turn, and
assertions of the reset input. -/
inductive Input where
  /-- the host performs one bus access -/
  | access (a : BusAccess)
  /-- the host polls STATUS until BUSY = 0 and DONE = 1 (30_encoding R99, `WAIT`) -/
  | wait
  /-- the engine runs the command in progress, if there is one (60_exceptions R233) -/
  | engine
  /-- the platform asserts the reset input and releases it (70_reset_and_hazards R250, log 16). DESIGN CHOICE: one
  event, no held level (log 20) -/
  | resetPin
deriving DecidableEq, Repr

/-- Every register of the block by name (10_state R21 to R39). -/
inductive Reg where
  | id | ctrl | status | cmd | arg | pos | len | dataIn | cap | consumed | skipped
  | nalInfo | nalScOff | nalPayOff | nalPayLen
  | adtsHdr | adtsLen | adtsFrameOff | adtsPayOff | adtsPayLen | adtsCrc
  | flvHdr | flvDataOffset
  | flvTag | flvPrevSize | flvDataSize | flvTimestamp | flvStreamId | flvTagOff | flvPayOff | flvEmitPts
  | flvAudio | flvVideo | flvEsOff | flvEsLen
  | amfStatus | amfNameOff | amfNameLen | amfCount | amfPairs | amfStopOff
  | flvPrevValid | flvPrevDs
  | metaInfo (i : Fin 12) | metaHi (i : Fin 12) | metaLo (i : Fin 12) | metaReserved (i : Fin 12)
  | rtpHdr | rtpSeq | rtpTimestamp | rtpSsrc | rtpDgramOff | rtpPayOff | rtpPayLen | rtpTsCount
  | rtpTsResidue
  | tsHdr | tsPid | tsPktOff | tsPayOff | tsPayLen | tsIndex
  | tsIter | tsNextOff | tsEndOff
deriving DecidableEq, Repr

/-- One line of a host program (30_encoding R99). -/
inductive HostLine where
  | wr (r : Reg) (v : Word)
  | rd (r : Reg)
  | push (bytes : List Byte)
  | cmd (i : Instr) (operand : Option Word)
  | wait
  | eos (e : Bool)
  | reset
deriving DecidableEq, Repr

end Sys2Proof
end

