-- ==== Sys2Proof/WellFormed.lean ====
section
/-! DEFINITION. What makes a command, a command word, a bus access and a host-program line well-formed. -/

namespace Sys2Proof

/-- A command has no operand field, so every command is well-formed (30_encoding R80). -/
def Instr.wf : Instr → Bool
  | .nalNext | .adtsNext | .flvHeader | .flvNextTag | .rtpParse | .tsNext | .seek | .advance
  | .compact | .softReset => true

/-- Does the command take an operand in ARG (30_encoding R81, R83)? -/
def Instr.takesOperand : Instr → Bool
  | .rtpParse | .seek | .advance => true
  | .nalNext | .adtsNext | .flvHeader | .flvNextTag | .tsNext | .compact | .softReset => false

/-- The reserved opcodes: 0x00, 0x07 to 0x0F, 0x13 to 0x1E and 0x20 to 0xFF (30_encoding R82). -/
def opcodeReserved (op : Byte) : Bool :=
  op.toNat = 0 || (7 ≤ op.toNat && op.toNat ≤ 0x0F) || (0x13 ≤ op.toNat && op.toNat ≤ 0x1E) ||
    0x20 ≤ op.toNat

/-- A command word is well-formed when its opcode, bits 7:0, is not reserved; bits 31:8 are not
looked at (30_encoding R80, R82). -/
def commandWordWf (w : Word) : Bool := !opcodeReserved (w.setWidth 8)

/-- The offset of an access. -/
def BusAccess.offset : BusAccess → Word
  | .read _ off => off
  | .write _ off _ => off

/-- The width of an access. -/
def BusAccess.width : BusAccess → AccessWidth
  | .read w _ => w
  | .write w _ _ => w

/-- The access is a 32-bit word access (20_memory R63). -/
def BusAccess.isWord (a : BusAccess) : Bool := a.width = .word

/-- The access is at a multiple of 4 (20_memory R63). -/
def BusAccess.isAligned (a : BusAccess) : Bool := a.offset.toNat % 4 = 0

/-- The host's duty as to the form of an access (20_memory R63, 70_reset_and_hazards R267 row 13). -/
def BusAccess.wf (a : BusAccess) : Bool := a.isWord && a.isAligned

/-- `CMD` carries an operand exactly when the command takes one, and `PUSH` lists at least one byte
(30_encoding R99). -/
def HostLine.wf : HostLine → Bool
  | .cmd i operand => i.wf && operand.isSome == i.takesOperand
  | .push bytes => !bytes.isEmpty
  | .wr _ _ | .rd _ | .wait | .eos _ | .reset => true

end Sys2Proof
end

