-- ==== Sys2Proof/Decode.lean ====
section
/-! DEFINITION. Decoding of a command word (30_encoding R80 to R84), its encoder, the register
offsets (10_state, 20_memory R61) and the expansion of host-program lines (30_encoding R99). -/

namespace Sys2Proof

/-- One row of the opcode map: a word matches when its bits under `mask` are `pattern`
(spec/opcode_table.json). -/
structure OpcodeRow where
  pattern : Word
  mask : Word
  instr : Instr
deriving DecidableEq, Repr

/-- The opcode map (30_encoding R81). -/
def opcodeTable : List OpcodeRow :=
  [⟨0x00000001#32, 0x000000FF#32, .nalNext⟩,
   ⟨0x00000002#32, 0x000000FF#32, .adtsNext⟩,
   ⟨0x00000003#32, 0x000000FF#32, .flvHeader⟩,
   ⟨0x00000004#32, 0x000000FF#32, .flvNextTag⟩,
   ⟨0x00000005#32, 0x000000FF#32, .rtpParse⟩,
   ⟨0x00000006#32, 0x000000FF#32, .tsNext⟩,
   ⟨0x00000010#32, 0x000000FF#32, .seek⟩,
   ⟨0x00000011#32, 0x000000FF#32, .advance⟩,
   ⟨0x00000012#32, 0x000000FF#32, .compact⟩,
   ⟨0x0000001F#32, 0x000000FF#32, .softReset⟩]

/-- Why a command word names no command. -/
inductive DecodeError where
  /-- the opcode is one of the reserved values of 30_encoding R82 -/
  | reservedOpcode (op : Byte)
deriving DecidableEq, Repr

def OpcodeRow.matches (r : OpcodeRow) (w : Word) : Bool := w &&& r.mask == r.pattern

/-- Decoding is a total function of CMD[7:0] (30_encoding R84); a reserved opcode is rejected by name. -/
def decode (w : Word) : Except DecodeError Instr :=
  match opcodeTable.find? (·.matches w) with
  | some r => .ok r.instr
  | none => .error (.reservedOpcode (w.setWidth 8))

/-- The OPCODE field of a command (30_encoding R81). -/
def Instr.opcode : Instr → Byte
  | .nalNext => 0x01#8
  | .adtsNext => 0x02#8
  | .flvHeader => 0x03#8
  | .flvNextTag => 0x04#8
  | .rtpParse => 0x05#8
  | .tsNext => 0x06#8
  | .seek => 0x10#8
  | .advance => 0x11#8
  | .compact => 0x12#8
  | .softReset => 0x1F#8

/-- The command word of a command, with the ignored bits 31:8 chosen by the host (30_encoding R80). -/
def encodeWith (ignored : BitVec 24) (i : Instr) : Word := ignored ++ i.opcode

/-- The command word the host should write: bits 31:8 are 0 (30_encoding R80). -/
def encode (i : Instr) : Word := encodeWith 0#24 i

/-- The decoder's reading of the low `nbits` bits of `w`, every bit above them 0. A command word has
32 bits. -/
def decodeTableWord (nbits w : Nat) : Option Instr :=
  match decode (BitVec.ofNat 32 (w % 2 ^ nbits)) with
  | .ok i => some i
  | .error _ => none

/-- The byte offset of a register (10_state R21 to R39; META row i at 0x100 + 16 i, R36). -/
def Reg.offset : Reg → Nat
  | .id => 0x000 | .ctrl => 0x004 | .status => 0x008 | .cmd => 0x00C | .arg => 0x010
  | .pos => 0x014 | .len => 0x018 | .dataIn => 0x01C | .cap => 0x020 | .consumed => 0x024
  | .skipped => 0x028
  | .nalInfo => 0x040 | .nalScOff => 0x044 | .nalPayOff => 0x048 | .nalPayLen => 0x04C
  | .adtsHdr => 0x060 | .adtsLen => 0x064 | .adtsFrameOff => 0x068 | .adtsPayOff => 0x06C
  | .adtsPayLen => 0x070 | .adtsCrc => 0x074
  | .flvHdr => 0x080 | .flvDataOffset => 0x084
  | .flvTag => 0x090 | .flvPrevSize => 0x094 | .flvDataSize => 0x098 | .flvTimestamp => 0x09C
  | .flvStreamId => 0x0A0 | .flvTagOff => 0x0A4 | .flvPayOff => 0x0A8 | .flvEmitPts => 0x0AC
  | .flvAudio => 0x0B0 | .flvVideo => 0x0B4 | .flvEsOff => 0x0B8 | .flvEsLen => 0x0BC
  | .amfStatus => 0x0C0 | .amfNameOff => 0x0C4 | .amfNameLen => 0x0C8 | .amfCount => 0x0CC
  | .amfPairs => 0x0D0 | .amfStopOff => 0x0D4
  | .flvPrevValid => 0x0D8 | .flvPrevDs => 0x0DC
  | .metaInfo i => 0x100 + 16 * i.val
  | .metaHi i => 0x104 + 16 * i.val
  | .metaLo i => 0x108 + 16 * i.val
  | .metaReserved i => 0x10C + 16 * i.val
  | .rtpHdr => 0x200 | .rtpSeq => 0x204 | .rtpTimestamp => 0x208 | .rtpSsrc => 0x20C
  | .rtpDgramOff => 0x210 | .rtpPayOff => 0x214 | .rtpPayLen => 0x218 | .rtpTsCount => 0x21C
  | .rtpTsResidue => 0x220
  | .tsHdr => 0x240 | .tsPid => 0x244 | .tsPktOff => 0x248 | .tsPayOff => 0x24C
  | .tsPayLen => 0x250 | .tsIndex => 0x254
  | .tsIter => 0x258 | .tsNextOff => 0x25C | .tsEndOff => 0x260

/-- The registers outside the META table, in offset order. -/
def plainRegs : List Reg :=
  [.id, .ctrl, .status, .cmd, .arg, .pos, .len, .dataIn, .cap, .consumed, .skipped,
   .nalInfo, .nalScOff, .nalPayOff, .nalPayLen,
   .adtsHdr, .adtsLen, .adtsFrameOff, .adtsPayOff, .adtsPayLen, .adtsCrc,
   .flvHdr, .flvDataOffset,
   .flvTag, .flvPrevSize, .flvDataSize, .flvTimestamp, .flvStreamId, .flvTagOff, .flvPayOff,
   .flvEmitPts, .flvAudio, .flvVideo, .flvEsOff, .flvEsLen,
   .amfStatus, .amfNameOff, .amfNameLen, .amfCount, .amfPairs, .amfStopOff,
   .flvPrevValid, .flvPrevDs,
   .rtpHdr, .rtpSeq, .rtpTimestamp, .rtpSsrc, .rtpDgramOff, .rtpPayOff, .rtpPayLen, .rtpTsCount,
   .rtpTsResidue,
   .tsHdr, .tsPid, .tsPktOff, .tsPayOff, .tsPayLen, .tsIndex, .tsIter, .tsNextOff, .tsEndOff]

/-- The four words of a META row (10_state R36). -/
def metaRowRegs (i : Fin 12) : List Reg := [.metaInfo i, .metaHi i, .metaLo i, .metaReserved i]

/-- Every register of the block. -/
def allRegs : List Reg := plainRegs ++ (List.finRange 12).flatMap metaRowRegs

/-- The register at a byte offset, or none where no rule names one (20_memory R61). -/
def regAt (off : Nat) : Option Reg := allRegs.find? (·.offset == off)

/-- `WR r, v` as a bus write (30_encoding R99). -/
def wrLine (r : Reg) (v : Word) : Input := .access (.write .word (Word.ofN r.offset) v)

/-- `RD r` as a bus read (30_encoding R99). -/
def rdLine (r : Reg) : Input := .access (.read .word (Word.ofN r.offset))

/-- The bus writes and waits of one host-program line (30_encoding R99). -/
def HostLine.expand : HostLine → List Input
  | .wr r v => [wrLine r v]
  | .rd r => [rdLine r]
  | .push bytes => bytes.map fun b => wrLine .dataIn (b.setWidth 32)
  | .cmd i none => [wrLine .cmd (encode i)]
  | .cmd i (some a) => [wrLine .arg a, wrLine .cmd (encode i)]
  | .wait => [.wait]
  | .eos e => [wrLine .ctrl ((BitVec.ofBool e).setWidth 32)]
  | .reset => [wrLine .cmd (encode .softReset), .wait]

/-- A host program is the accesses of its lines in order (30_encoding R99, 20_memory R69). -/
def expandProgram (p : List HostLine) : List Input := p.flatMap HostLine.expand

end Sys2Proof
end

