-- ==== Sys2Proof/Config.lean ====
section
/-! DEFINITION. What the implementation fixes (00_scope R6) and the one free value of the model. -/

namespace Sys2Proof.Config

/-- The `ID` register's constant, ASCII "DSB1" (10_state R21). -/
def idValue : Word := 0x44534231#32

/-- Byte offset of the buffer read window (00_scope R6). -/
def winBase : Nat := 0x00100000

/-- The least BUF_CAP an implementation may have (00_scope R6). -/
def capMin : Nat := 64

/-- The largest BUF_CAP an implementation may have, 2^24 (00_scope R6). -/
def capMax : Nat := 16777216

/-- DESIGN CHOICE (log 4): BUF_CAP is open (00_scope R6); the reset state takes the recommended value.
Unsafe for a claim about the reset state alone; every other claim is over all values of `State.cap`. -/
def capRecommended : Nat := 65536

/-- RTP payload type that selects the MPEG-TS rescan, TS_PT (00_scope R6). -/
def tsPayloadType : Nat := 33

/-- MPEG-TS packet length, TS_STRIDE (00_scope R6). -/
def tsStride : Nat := 188

/-- The sync byte of an MPEG-TS packet (30_encoding R96). -/
def tsSyncByte : Byte := 0x47#8

/-- FLV tag_type codes 8, 9 and 18 (43_flv R182). UNVERIFIED: the spec marks them as general knowledge (K2, log 10); unsafe. -/
def flvAudioType : Byte := 8#8
def flvVideoType : Byte := 9#8
def flvScriptType : Byte := 18#8

/-- The three signature bytes "FLV" as one big-endian number (43_flv R171). -/
def flvSignature : Nat := 0x464C56

/-- FREE VALUE (log 6): what the n-th read of an unspecified register returns while BUSY = 1
(70_reset_and_hazards R262). No body: nothing can be proved of it. Safe. -/
opaque freeRead : Nat → Word

end Sys2Proof.Config
end

