-- ==== Sys2Proof/Machine/State.lean ====
section
/-! DEFINITION. The architectural state of one block instance (10_state R20), as plain data, and its
value after reset (10_state R45, 70_reset_and_hazards R250). Reserved bits are not held: they read 0 and
ignore writes (10_state R42 (b)). -/

namespace Sys2Proof.Machine

/-- Why a bus access gets a bus-error response (20_memory R65). Raised by the bus operations alone;
the block's state is unchanged (60_exceptions R238). Ending the run there is safe (log 7). -/
inductive BusErrorKind where
  /-- (b) an access narrower than 32 bits -/
  | narrow
  /-- (a) an offset that is not a multiple of 4 -/
  | misaligned
  /-- (c) an offset at which nothing is mapped -/
  | unmapped
  /-- (d) a write to the window -/
  | windowWrite
deriving DecidableEq, Repr

/-- The faults. -/
inductive Fault where
  /-- A bus access the spec answers with a bus error (20_memory R65, 60_exceptions R238). Raised by
  hostRead and hostWrite. Safe: the block itself goes on unchanged, the model stops (log 7). -/
  | busError (why : BusErrorKind)
deriving DecidableEq, Repr

/-- The refusals. -/
inductive Refusal where
  /-- An instruction with no meaning in this model. Raised by no arm: every instruction has one. Safe. -/
  | notModelled (mnemonic : String)
deriving DecidableEq, Repr

/-- The result codes (60_exceptions R230); the reserved values 11 to 15 are not constructible. -/
inductive ResultCode where
  | ok
  | endOfStream
  | needMoreData
  | noStartCode
  | noSyncWord
  | truncated
  | unsupportedTagType
  | unsupportedCodec
  | malformedHeader
  | capacityExceeded
  | cmdError
deriving DecidableEq, Repr

/-- The closed variant of FLV tag kinds (43_flv R182). A cleared KIND field reads 0, which is `audio`. -/
inductive TagKind where
  | audio
  | video
  | script
  | unknown
deriving DecidableEq, Repr

/-- CTRL (10_state R22). -/
structure Ctrl where
  eos : Bool
  ie : Bool
deriving DecidableEq, Repr

/-- STATUS (10_state R23). -/
structure Status where
  busy : Bool
  done : Bool
  overflow : Bool
  busyWrite : Bool
  code : ResultCode
  lastOp : Byte
deriving DecidableEq, Repr

/-- Group G_NAL (10_state R29). -/
structure GNal where
  scLen : BitVec 3
  hdrValid : Bool
  forbidden : Bool
  refIdc : BitVec 2
  unitType : BitVec 5
  scOff : Word
  payOff : Word
  payLen : Word
deriving DecidableEq, Repr

/-- Group G_ADTS (10_state R30). -/
structure GAdts where
  version : Bool
  layer : BitVec 2
  protAbsent : Bool
  profile : BitVec 2
  sfIndex : BitVec 4
  privateBit : Bool
  chanCfg : BitVec 3
  original : Bool
  home : Bool
  copyrightId : Bool
  copyrightStart : Bool
  numFramesM1 : BitVec 2
  frameLength : BitVec 13
  bufferFullness : BitVec 11
  hdrLen : BitVec 4
  frameOff : Word
  payOff : Word
  payLen : Word
  crc : BitVec 16
deriving DecidableEq, Repr

/-- Group G_FLVH (10_state R31). -/
structure GFlvh where
  version : Byte
  flags : Byte
  dataOffset : Word
deriving DecidableEq, Repr

/-- Group G_FLVT, both parts (10_state R32, R33). -/
structure GFlvt where
  tagType : Byte
  kind : TagKind
  ptsChecked : Bool
  ptsMismatch : Bool
  reservedHi : Byte
  prevSize : Word
  dataSize : BitVec 24
  timestamp : BitVec 24
  streamId : BitVec 24
  tagOff : Word
  payOff : Word
  emitPts : Word
  audio : Byte
  video : Byte
  esOff : Word
  esLen : Word
deriving DecidableEq, Repr

/-- Group G_AMF (10_state R34). -/
structure GAmf where
  nameIsOnMetaData : Bool
  arrayPresent : Bool
  endSeen : Bool
  partialDecode : Bool
  decoded : Bool
  stopType : Byte
  nameOff : Word
  nameLen : Word
  count : Word
  pairs : Word
  stopOff : Word
deriving DecidableEq, Repr

/-- One row of group G_META (10_state R36). -/
structure MetaRow where
  present : Bool
  amfType : Byte
  hi : Word
  lo : Word
deriving DecidableEq, Repr

/-- The FLV previous-tag state (10_state R35). -/
structure FlvPrev where
  valid : Bool
  ds : BitVec 24
deriving DecidableEq, Repr

/-- Group G_RTP (10_state R37). -/
structure GRtp where
  version : BitVec 2
  padding : Bool
  extension : Bool
  csrcCount : BitVec 4
  marker : Bool
  payloadType : BitVec 7
  seq : BitVec 16
  timestamp : Word
  ssrc : Word
  dgramOff : Word
  payOff : Word
  payLen : Word
  tsCount : Word
  tsResidue : Word
deriving DecidableEq, Repr

/-- Group G_TS (10_state R38). -/
structure GTs where
  syncByte : Byte
  transportError : Bool
  payloadStart : Bool
  priority : Bool
  scrambling : BitVec 2
  afc : BitVec 2
  cc : BitVec 4
  pid : BitVec 13
  pktOff : Word
  payOff : Word
  payLen : Word
  index : Word
deriving DecidableEq, Repr

/-- The TS iterator (10_state R39). -/
structure TsIter where
  active : Bool
  nextIndex : BitVec 16
  nextOff : Word
  endOff : Word
deriving DecidableEq, Repr

/-- IBUF (10_state R40): the entries that differ from what an unlisted entry reads as, by rising index.
Entries at or above LEN are omitted, as R40 allows. -/
abbrev Memory := List Host.Cell

/-- The MODEL's own: what the last host access answered (log 9). -/
inductive Response where
  /-- no access has been answered yet -/
  | none
  /-- a read returned this word -/
  | readData (v : Word)
  /-- a write was taken, ignored or refused without a bus error -/
  | writeOk
deriving DecidableEq, Repr

/-- The state (10_state R20). ID, CMD, DATA_IN, the reserved words and the interrupt output hold nothing
of their own. The command in progress is STATUS.BUSY with STATUS.LAST_OP (log 3). The last three fields
are the model's own. -/
structure State where
  ctrl : Ctrl
  status : Status
  arg : Word
  pos : Word
  len : Word
  /-- BUF_CAP, a constant no step changes (00_scope R6, log 4) -/
  cap : Word
  consumed : Word
  skipped : Word
  nal : GNal
  adts : GAdts
  flvh : GFlvh
  flvt : GFlvt
  amf : GAmf
  metaRows : Vector MetaRow 12
  flvPrev : FlvPrev
  rtp : GRtp
  ts : GTs
  tsIter : TsIter
  ibuf : Memory
  /-- the MODEL's own: what comes to the block next (log 1) -/
  inputs : List Input
  /-- the MODEL's own: the answer of the last host access (log 9) -/
  response : Response
  /-- the MODEL's own: numbers the unspecified reads (log 6) -/
  freeCount : Nat
deriving DecidableEq, Repr

/-- The cleared groups: every register of the group is 0 (40_cursor R112), which is also its reset value. -/
def GNal.zero : GNal := ⟨0#3, false, false, 0#2, 0#5, 0#32, 0#32, 0#32⟩

def GAdts.zero : GAdts :=
  ⟨false, 0#2, false, 0#2, 0#4, false, 0#3, false, false, false, false, 0#2, 0#13, 0#11, 0#4,
   0#32, 0#32, 0#32, 0#16⟩

def GFlvh.zero : GFlvh := ⟨0#8, 0#8, 0#32⟩

def GFlvt.zero : GFlvt :=
  ⟨0#8, .audio, false, false, 0#8, 0#32, 0#24, 0#24, 0#24, 0#32, 0#32, 0#32, 0#8, 0#8, 0#32, 0#32⟩

def GAmf.zero : GAmf :=
  ⟨false, false, false, false, false, 0#8, 0#32, 0#32, 0#32, 0#32, 0#32⟩

def MetaRow.zero : MetaRow := ⟨false, 0#8, 0#32, 0#32⟩

def GRtp.zero : GRtp :=
  ⟨0#2, false, false, 0#4, false, 0#7, 0#16, 0#32, 0#32, 0#32, 0#32, 0#32, 0#32, 0#32⟩

def GTs.zero : GTs :=
  ⟨0#8, false, false, false, 0#2, 0#2, 0#4, 0#13, 0#32, 0#32, 0#32, 0#32⟩

/-- The iterator with TS_ITER, TS_NEXT_OFF and TS_END_OFF all 0 (40_cursor R122, 44_rtp R210, R220). -/
def TsIter.zero : TsIter := ⟨false, 0#16, 0#32, 0#32⟩

def FlvPrev.zero : FlvPrev := ⟨false, 0#24⟩

def Status.zero : Status := ⟨false, false, false, false, .ok, 0#8⟩

def Ctrl.zero : Ctrl := ⟨false, false⟩

/-- The G_META table with every row 0 (10_state R36). -/
def metaRowsZero : Vector MetaRow 12 := Vector.replicate 12 MetaRow.zero

/-- The state right after reset of an instance whose BUF_CAP is `cap` (10_state R45,
70_reset_and_hazards R250): CAP = BUF_CAP, everything else 0, no valid byte in IBUF. -/
def State.resetWith (cap : Word) : State where
  ctrl := .zero
  status := .zero
  arg := 0#32
  pos := 0#32
  len := 0#32
  cap := cap
  consumed := 0#32
  skipped := 0#32
  nal := .zero
  adts := .zero
  flvh := .zero
  flvt := .zero
  amf := .zero
  metaRows := metaRowsZero
  flvPrev := .zero
  rtp := .zero
  ts := .zero
  tsIter := .zero
  ibuf := []
  inputs := []
  response := .none
  freeCount := 0

/-- The machine right after reset, with the recommended BUF_CAP (DESIGN CHOICE, log 4). -/
def State.reset : State := State.resetWith (Word.ofN Config.capRecommended)

end Sys2Proof.Machine
end

