-- ==== Sys2Proof/Machine/Flags.lean ====
section
/-! DEFINITION. STATUS and its flags (10_state R23, R44), the numbers of the result codes
(60_exceptions R230, R232), completion (R231), the write-1-to-clear bits, and the interrupt (R236). -/

namespace Sys2Proof.Machine

/-- The number of a result code (60_exceptions R230). -/
def ResultCode.toBits : ResultCode → BitVec 4
  | .ok => 0#4
  | .endOfStream => 1#4
  | .needMoreData => 2#4
  | .noStartCode => 3#4
  | .noSyncWord => 4#4
  | .truncated => 5#4
  | .unsupportedTagType => 6#4
  | .unsupportedCodec => 7#4
  | .malformedHeader => 8#4
  | .capacityExceeded => 9#4
  | .cmdError => 10#4

/-- The classes of code (60_exceptions R232). -/
inductive CodeClass where
  | success
  | endOfInput
  | backpressure
  | unitError
  | blockLimit
  | hostError
deriving DecidableEq, Repr

/-- The class of a code (60_exceptions R232). -/
def ResultCode.codeClass : ResultCode → CodeClass
  | .ok => .success
  | .endOfStream => .endOfInput
  | .needMoreData => .backpressure
  | .noStartCode | .noSyncWord | .truncated | .unsupportedTagType | .unsupportedCodec
  | .malformedHeader => .unitError
  | .capacityExceeded => .blockLimit
  | .cmdError => .hostError

/-- KIND as the register field holds it (43_flv R182). -/
def TagKind.toBits : TagKind → BitVec 2
  | .audio => 0#2
  | .video => 1#2
  | .script => 2#2
  | .unknown => 3#2

/-- STATUS as a 32-bit word (10_state R23). -/
def Status.toWord (st : Status) : Word :=
  0#8 ++ st.lastOp ++ 0#4 ++ st.code.toBits ++ 0#4 ++ BitVec.ofBool st.busyWrite ++
    BitVec.ofBool st.overflow ++ BitVec.ofBool st.done ++ BitVec.ofBool st.busy

/-- A host write to STATUS: a 1 clears DONE, OVERFLOW or BUSY_WRITE, a 0 leaves it, every other field
keeps its value (10_state R23). -/
def Status.writeOneToClear (st : Status) (v : Word) : Status :=
  { st with
    done := st.done && !v.getLsbD 1
    overflow := st.overflow && !v.getLsbD 2
    busyWrite := st.busyWrite && !v.getLsbD 3 }

/-- What the acceptance of a CMD write does to STATUS (10_state R24). -/
def Status.accept (st : Status) (op : Byte) : Status :=
  { st with lastOp := op, done := false, busy := true }

/-- What a raise does to STATUS (60_exceptions R231). -/
def Status.raise (st : Status) (c : ResultCode) : Status :=
  { st with code := c, busy := false, done := true }

/-- CTRL as a 32-bit word (10_state R22). -/
def Ctrl.toWord (c : Ctrl) : Word := 0#30 ++ BitVec.ofBool c.ie ++ BitVec.ofBool c.eos

/-- What a write of `v` stores in CTRL: bits 1..0 only (10_state R22). -/
def Ctrl.ofWord (v : Word) : Ctrl := ⟨v.getLsbD 0, v.getLsbD 1⟩

/-- The interrupt output, IRQ = CTRL.IE and STATUS.DONE (60_exceptions R236). -/
def State.irq (s : State) : Bool := s.ctrl.ie && s.status.done

end Sys2Proof.Machine
end

