-- ==== Sys2Proof/Machine/Operands.lean ====
section
/-! DEFINITION. Operand forms: what a command latches at its start (00_scope R12, 30_encoding R83,
40_cursor R110), the field layouts of the stream bytes (30_encoding R85 to R96), and the 32-bit words the
result registers read as (10_state R29 to R39). -/

namespace Sys2Proof.Machine

/-! ## What a command latches -/

/-- p0, L, eos, arg and BUF_CAP as natural numbers (00_scope R12, 30_encoding R83). -/
structure Latch where
  p0 : Nat
  len : Nat
  cap : Nat
  arg : Nat
  eos : Bool
deriving DecidableEq, Repr

/-- The values a command reads once at its start (40_cursor R110, log 3). -/
def State.latch (s : State) : Latch :=
  ⟨s.pos.toNat, s.len.toNat, s.cap.toNat, s.arg.toNat, s.ctrl.eos⟩

/-- `avail = L - p0` (00_scope R12). -/
def Latch.avail (l : Latch) : Nat := l.len - l.p0

/-! ## Layouts of stream bytes -/

/-- NAL header byte h: FORBIDDEN = h[7], REF_IDC = h[6:5], TYPE = h[4:0] (30_encoding R86, log 10). -/
def GNal.withHeader (g : GNal) (h : Byte) : GNal :=
  { g with
    hdrValid := true
    forbidden := h.getLsbD 7
    refIdc := h.extractLsb 6 5
    unitType := h.extractLsb 4 0 }

/-- HDR_LEN: 7 when protection_absent = 1, 9 when it is 0 (30_encoding R88, 42_adts R155). -/
def adtsHeaderLen (protAbsent : Bool) : Nat := if protAbsent then 7 else 9

/-- The fields of the seven fixed ADTS header bytes (30_encoding R87); a0 and the top of a1 are the sync. -/
def GAdts.withHeader (g : GAdts) (a1 a2 a3 a4 a5 a6 : Byte) : GAdts :=
  { g with
    version := a1.getLsbD 3
    layer := a1.extractLsb 2 1
    protAbsent := a1.getLsbD 0
    profile := a2.extractLsb 7 6
    sfIndex := a2.extractLsb 5 2
    privateBit := a2.getLsbD 1
    chanCfg := a2.extractLsb 0 0 ++ a3.extractLsb 7 6
    original := a3.getLsbD 5
    home := a3.getLsbD 4
    copyrightId := a3.getLsbD 3
    copyrightStart := a3.getLsbD 2
    frameLength := a3.extractLsb 1 0 ++ a4 ++ a5.extractLsb 7 5
    bufferFullness := a5.extractLsb 4 0 ++ a6.extractLsb 7 2
    numFramesM1 := a6.extractLsb 1 0 }

/-- `kind(tag_type)` (43_flv R182, log 10). -/
def tagKind (tagType : Byte) : TagKind :=
  if tagType = Config.flvAudioType then .audio
  else if tagType = Config.flvVideoType then .video
  else if tagType = Config.flvScriptType then .script
  else .unknown

/-- Bytes 0 and 1 of the RTP fixed header (30_encoding R95). -/
def GRtp.withFlags (g : GRtp) (r0 r1 : Byte) : GRtp :=
  { g with
    version := r0.extractLsb 7 6
    padding := r0.getLsbD 5
    extension := r0.getLsbD 4
    csrcCount := r0.extractLsb 3 0
    marker := r1.getLsbD 7
    payloadType := r1.extractLsb 6 0 }

/-- Bytes 1 to 3 of an MPEG-TS packet (30_encoding R96). -/
def GTs.withHeader (g : GTs) (m1 m2 m3 : Byte) : GTs :=
  { g with
    transportError := m1.getLsbD 7
    payloadStart := m1.getLsbD 6
    priority := m1.getLsbD 5
    pid := m1.extractLsb 4 0 ++ m2
    scrambling := m3.extractLsb 7 6
    afc := m3.extractLsb 5 4
    cc := m3.extractLsb 3 0 }

/-! ## Register words -/

/-- NAL_INFO (10_state R29). -/
def GNal.infoWord (g : GNal) : Word :=
  0#19 ++ g.unitType ++ 0#1 ++ g.refIdc ++ BitVec.ofBool g.forbidden ++ BitVec.ofBool g.hdrValid ++
    g.scLen

/-- ADTS_HDR (10_state R30). -/
def GAdts.hdrWord (g : GAdts) : Word :=
  0#12 ++ g.numFramesM1 ++ BitVec.ofBool g.copyrightStart ++ BitVec.ofBool g.copyrightId ++
    BitVec.ofBool g.home ++ BitVec.ofBool g.original ++ g.chanCfg ++ BitVec.ofBool g.privateBit ++
    g.sfIndex ++ g.profile ++ BitVec.ofBool g.protAbsent ++ g.layer ++ BitVec.ofBool g.version

/-- ADTS_LEN (10_state R30). -/
def GAdts.lenWord (g : GAdts) : Word :=
  g.hdrLen ++ 0#1 ++ g.bufferFullness ++ 0#3 ++ g.frameLength

/-- FLV_HDR (10_state R31). -/
def GFlvh.hdrWord (g : GFlvh) : Word := 0#16 ++ g.flags ++ g.version

/-- FLV_TAG (10_state R32). -/
def GFlvt.tagWord (g : GFlvt) : Word :=
  0#8 ++ g.reservedHi ++ 0#2 ++ BitVec.ofBool g.ptsMismatch ++ BitVec.ofBool g.ptsChecked ++ 0#2 ++
    g.kind.toBits ++ g.tagType

/-- AMF_STATUS (10_state R34). -/
def GAmf.statusWord (g : GAmf) : Word :=
  0#16 ++ g.stopType ++ 0#3 ++ BitVec.ofBool g.decoded ++ BitVec.ofBool g.partialDecode ++
    BitVec.ofBool g.endSeen ++ BitVec.ofBool g.arrayPresent ++ BitVec.ofBool g.nameIsOnMetaData

/-- META_INFO (10_state R36). -/
def MetaRow.infoWord (r : MetaRow) : Word :=
  0#16 ++ r.amfType ++ 0#7 ++ BitVec.ofBool r.present

/-- RTP_HDR (10_state R37). -/
def GRtp.hdrWord (g : GRtp) : Word :=
  0#9 ++ g.payloadType ++ 0#7 ++ BitVec.ofBool g.marker ++ g.csrcCount ++ BitVec.ofBool g.extension ++
    BitVec.ofBool g.padding ++ g.version

/-- TS_HDR (10_state R38). -/
def GTs.hdrWord (g : GTs) : Word :=
  0#12 ++ g.cc ++ g.afc ++ g.scrambling ++ 0#1 ++ BitVec.ofBool g.priority ++
    BitVec.ofBool g.payloadStart ++ BitVec.ofBool g.transportError ++ g.syncByte

/-- TS_ITER (10_state R39). -/
def TsIter.word (t : TsIter) : Word := t.nextIndex ++ 0#15 ++ BitVec.ofBool t.active

end Sys2Proof.Machine
end

