-- ==== Sys2Proof/Machine/Ops.lean ====
section
/-! DEFINITION. The named operations every command and bus access is made of: IBUF (10_state R40,
20_memory R66), the bounded least-index search (00_scope R17), command acceptance and start (10_state R24,
40_cursor R110, R112), completion and shortfall (60_exceptions R231, 40_cursor R111), consumption
(40_cursor R113), append (10_state R28), and reset (70_reset_and_hazards R250).

The block has no exceptions (60_exceptions R241): `complete` is the one operation every command ends in,
where a processor's instruction would take an exception. -/

namespace Sys2Proof.Machine

/-! ## The buffer -/

/-- DESIGN CHOICE (log 5): an entry the memory does not list reads as 0. Entries below LEN are exact;
entries at or above LEN are unobservable (10_state R40). -/
def Memory.unlisted : Byte := 0#8

/-- `B(i)`, the byte IBUF[i] (00_scope R11, 20_memory R66). -/
def Memory.read : Memory → Nat → Byte
  | [], _ => Memory.unlisted
  | (a, b) :: m, i => if i = a then b else Memory.read m i

/-- `MemWrite(i, 1, v)` (00_scope R11), keeping the canonical form. -/
def Memory.write : Memory → Nat → Byte → Memory
  | [], i, v => if v = Memory.unlisted then [] else [(i, v)]
  | (a, b) :: m, i, v =>
    if i < a then (if v = Memory.unlisted then (a, b) :: m else (i, v) :: (a, b) :: m)
    else if i = a then (if v = Memory.unlisted then m else (a, v) :: m)
    else (a, b) :: Memory.write m i v

/-- The canonical form: indices strictly rising, no entry equal to what an unlisted index reads as. -/
abbrev Memory.wf (m : Memory) : Prop :=
  m.Pairwise (fun c d => c.1 < d.1) ∧ ∀ c ∈ m, c.2 ≠ Memory.unlisted

/-- Every listed index is below `n`. -/
abbrev Memory.below (m : Memory) (n : Nat) : Prop := ∀ c ∈ m, c.1 < n

/-- `MemRead(i, n)`: n consecutive bytes, the first most significant (00_scope R10, R11, 20_memory R66). -/
def memRead (m : Memory) : Nat → Nat → Nat
  | _, 0 => 0
  | i, n + 1 => (Memory.read m i).toNat * 256 ^ n + memRead m (i + 1) n

/-- The n bytes from index i, in order. -/
def bytesAt (m : Memory) : Nat → Nat → List Byte
  | _, 0 => []
  | i, n + 1 => Memory.read m i :: bytesAt m (i + 1) n

/-- COMPACT's move of [p0, L) to the start of IBUF (40_cursor R122). Entries outside that range are
omitted: they end at or above the new LEN (10_state R40). -/
def Memory.compacted (m : Memory) (p0 len : Nat) : Memory :=
  m.filterMap fun c => if p0 ≤ c.1 ∧ c.1 < len then some (c.1 - p0, c.2) else none

/-- `least i` with `f i` an answer, over the `fuel` indices from `i`; the answer comes with it (00_scope R17). -/
def leastSome {α : Type} (f : Nat → Option α) : Nat → Nat → Option (Nat × α)
  | 0, _ => none
  | fuel + 1, i =>
    match f i with
    | some a => some (i, a)
    | none => leastSome f fuel (i + 1)

/-! ## Completion -/

/-- `raise c` (60_exceptions R231): CODE <- c, BUSY <- 0, DONE <- 1; every register written before stays. -/
def complete (c : ResultCode) (s : State) : State := { s with status := s.status.raise c }

/-- The code of `shortfall(need)` (40_cursor R111). -/
def shortfallCode (l : Latch) (need : Nat) : ResultCode :=
  if l.eos then .truncated else if l.cap < need then .capacityExceeded else .needMoreData

/-- `shortfall(need)`: the command ends without moving POS (40_cursor R111). -/
def shortfall (l : Latch) (need : Nat) (s : State) : State := complete (shortfallCode l need) s

/-! ## Acceptance and start -/

/-- The acceptance of a CMD write of `w` (10_state R24): the engine now holds the command. -/
def acceptCommand (w : Word) (s : State) : State := { s with status := s.status.accept (w.setWidth 8) }

/-- The word of the command in progress (10_state R24, log 3): while BUSY = 1 its opcode is LAST_OP, and
its ignored bits play no part (30_encoding R84). -/
def State.commandInProgress (s : State) : Option Word :=
  if s.status.busy then some (s.status.lastOp.setWidth 32) else none

/-- The result groups (10_state R20). -/
inductive ResultGroup where
  | nal
  | adts
  | flvh
  | flvt
  | amf
  | metaTable
  | rtp
  | ts
deriving DecidableEq, Repr

/-- `clear(G)` (40_cursor R112). -/
def clearGroup (s : State) : ResultGroup → State
  | .nal => { s with nal := .zero }
  | .adts => { s with adts := .zero }
  | .flvh => { s with flvh := .zero }
  | .flvt => { s with flvt := .zero }
  | .amf => { s with amf := .zero }
  | .metaTable => { s with metaRows := metaRowsZero }
  | .rtp => { s with rtp := .zero }
  | .ts => { s with ts := .zero }

/-- The groups a command clears at its start (40_cursor R112). SOFT_RESET resets all state by its own rule. -/
def clearedGroups : Instr → List ResultGroup
  | .nalNext => [.nal]
  | .adtsNext => [.adts]
  | .flvHeader => [.flvh]
  | .flvNextTag => [.flvt, .amf, .metaTable]
  | .rtpParse => [.rtp, .ts]
  | .tsNext => [.ts]
  | .seek | .advance | .compact | .softReset => []

/-- The start of a defined command (40_cursor R110): CONSUMED and SKIPPED <- 0, then its groups are cleared. -/
def startCommand (i : Instr) (s : State) : State :=
  (clearedGroups i).foldl clearGroup { s with consumed := 0#32, skipped := 0#32 }

/-- A reserved opcode: `raise CMD_ERROR` and nothing else (40_cursor R124). -/
def completeReserved (s : State) : State := complete .cmdError s

/-! ## Cursor and buffer -/

/-- `pos <- p1; CONSUMED <- p1 - p0` (40_cursor R113). -/
def consumeTo (l : Latch) (p1 : Nat) (s : State) : State :=
  { s with pos := Word.ofN p1, consumed := Word.ofN (p1 - l.p0) }

/-- The append of one byte (10_state R28): `MemWrite(LEN, 1, b); LEN <- LEN + 1`. -/
def appendByte (b : Byte) (s : State) : State :=
  { s with
    ibuf := Memory.write s.ibuf s.len.toNat b
    len := Word.ofN (s.len.toNat + 1) }

/-- The TS iterator cancelled (44_rtp R214). -/
def cancelIterator (s : State) : State := { s with tsIter := .zero }

/-! ## Reset -/

/-- Every register and field at its reset value (10_state R45): the effect of the reset input
(70_reset_and_hazards R250) and of SOFT_RESET before its completion (40_cursor R123). CAP is a constant;
the model's own fields are not the block's and stay. -/
def resetBlock (s : State) : State :=
  { State.resetWith s.cap with
    inputs := s.inputs
    response := s.response
    freeCount := s.freeCount }

end Sys2Proof.Machine
end

