-- ==== Sys2Proof/Machine/Bus.lean ====
section
/-! DEFINITION. The host's side: what a register reads as (10_state R21 to R42), what a write does
(10_state R22 to R28, R35, R42), the window (R41), bus errors (20_memory R65), and the hazards of accesses
while BUSY = 1 (70_reset_and_hazards R261, R262). -/

namespace Sys2Proof.Machine

/-- What a register reads as while BUSY = 0 (10_state R21 to R39). A write-only register reads 0
(R42 (c)); reserved bits and words read 0 (R42 (b), R36). -/
def readReg (s : State) : Reg → Word
  | .id => Config.idValue
  | .ctrl => s.ctrl.toWord
  | .status => s.status.toWord
  | .cmd => 0#32
  | .arg => s.arg
  | .pos => s.pos
  | .len => s.len
  | .dataIn => 0#32
  | .cap => s.cap
  | .consumed => s.consumed
  | .skipped => s.skipped
  | .nalInfo => s.nal.infoWord
  | .nalScOff => s.nal.scOff
  | .nalPayOff => s.nal.payOff
  | .nalPayLen => s.nal.payLen
  | .adtsHdr => s.adts.hdrWord
  | .adtsLen => s.adts.lenWord
  | .adtsFrameOff => s.adts.frameOff
  | .adtsPayOff => s.adts.payOff
  | .adtsPayLen => s.adts.payLen
  | .adtsCrc => s.adts.crc.setWidth 32
  | .flvHdr => s.flvh.hdrWord
  | .flvDataOffset => s.flvh.dataOffset
  | .flvTag => s.flvt.tagWord
  | .flvPrevSize => s.flvt.prevSize
  | .flvDataSize => s.flvt.dataSize.setWidth 32
  | .flvTimestamp => s.flvt.timestamp.setWidth 32
  | .flvStreamId => s.flvt.streamId.setWidth 32
  | .flvTagOff => s.flvt.tagOff
  | .flvPayOff => s.flvt.payOff
  | .flvEmitPts => s.flvt.emitPts
  | .flvAudio => s.flvt.audio.setWidth 32
  | .flvVideo => s.flvt.video.setWidth 32
  | .flvEsOff => s.flvt.esOff
  | .flvEsLen => s.flvt.esLen
  | .amfStatus => s.amf.statusWord
  | .amfNameOff => s.amf.nameOff
  | .amfNameLen => s.amf.nameLen
  | .amfCount => s.amf.count
  | .amfPairs => s.amf.pairs
  | .amfStopOff => s.amf.stopOff
  | .flvPrevValid => (BitVec.ofBool s.flvPrev.valid).setWidth 32
  | .flvPrevDs => s.flvPrev.ds.setWidth 32
  | .metaInfo i => (s.metaRows.get i).infoWord
  | .metaHi i => (s.metaRows.get i).hi
  | .metaLo i => (s.metaRows.get i).lo
  | .metaReserved _ => 0#32
  | .rtpHdr => s.rtp.hdrWord
  | .rtpSeq => s.rtp.seq.setWidth 32
  | .rtpTimestamp => s.rtp.timestamp
  | .rtpSsrc => s.rtp.ssrc
  | .rtpDgramOff => s.rtp.dgramOff
  | .rtpPayOff => s.rtp.payOff
  | .rtpPayLen => s.rtp.payLen
  | .rtpTsCount => s.rtp.tsCount
  | .rtpTsResidue => s.rtp.tsResidue
  | .tsHdr => s.ts.hdrWord
  | .tsPid => s.ts.pid.setWidth 32
  | .tsPktOff => s.ts.pktOff
  | .tsPayOff => s.ts.payOff
  | .tsPayLen => s.ts.payLen
  | .tsIndex => s.ts.index
  | .tsIter => s.tsIter.word
  | .tsNextOff => s.tsIter.nextOff
  | .tsEndOff => s.tsIter.endOff

/-- What an offset names (20_memory R61). -/
inductive Target where
  | reg (r : Reg)
  | window (i : Nat)
  | unmapped
deriving DecidableEq, Repr

/-- The address map (20_memory R61): the registers, then the window of 4·BUF_CAP bytes at WIN_BASE (10_state R41). -/
def busTarget (cap off : Nat) : Target :=
  match regAt off with
  | some r => .reg r
  | none =>
    if Config.winBase ≤ off ∧ off < Config.winBase + 4 * cap then .window ((off - Config.winBase) / 4)
    else .unmapped

/-- A window read while BUSY = 0: the byte, zero-extended, below LEN, else 0 (10_state R41). -/
def readWindow (s : State) (i : Nat) : Word :=
  if i < s.len.toNat then (Memory.read s.ibuf i).setWidth 32 else 0#32

/-- The host sees the answer of its access (log 9). -/
def respond (r : Response) (s : State) : State := { s with response := r }

/-- The answer of a read that returns an unspecified value: a free value, numbered by the model's counter
(70_reset_and_hazards R262, log 6). No side effect on the block. -/
def respondFree (s : State) : State :=
  { s with response := .readData (Config.freeRead s.freeCount), freeCount := s.freeCount + 1 }

/-- The registers whose read is specified while BUSY = 1 (70_reset_and_hazards R262). DEDUCED: CMD, DATA_IN and the
reserved META words are not among them, though 10_state R42 (b), (c) have them read 0 (log 21). -/
def regReadableWhileBusy : Reg → Bool
  | .status | .id | .cap => true
  | _ => false

/-- A read of register r (10_state R42 (d), 70_reset_and_hazards R262). DEDUCED: while BUSY = 1 a read of CMD or DATA_IN
answers the free value, by R262 against R42 (c) (log 21). -/
def hostReadReg (r : Reg) (s : State) : State :=
  if s.status.busy && !regReadableWhileBusy r then respondFree s
  else respond (.readData (readReg s r)) s

/-- A read of the window at index i (10_state R41, 70_reset_and_hazards R262). -/
def hostReadWindow (i : Nat) (s : State) : State :=
  if s.status.busy then respondFree s else respond (.readData (readWindow s i)) s

/-- The registers a host write may change, other than STATUS; every other register ignores writes
(10_state R42 (a)). -/
def regWritable : Reg → Bool
  | .ctrl | .cmd | .arg | .dataIn | .flvPrevValid | .flvPrevDs => true
  | _ => false

/-- A DATA_IN write while BUSY = 0 (10_state R28): append, or drop the byte and set OVERFLOW. -/
def writeDataIn (v : Word) (s : State) : State :=
  if s.len = s.cap then { s with status := { s.status with overflow := true } }
  else appendByte (v.setWidth 8) s

/-- The effect of a write of v to a writable register while BUSY = 0 (10_state R22, R24, R25, R28, R35). -/
def writeReg (r : Reg) (v : Word) (s : State) : State :=
  match r with
  | .ctrl => { s with ctrl := Ctrl.ofWord v }
  | .cmd => acceptCommand v s
  | .arg => { s with arg := v }
  | .dataIn => writeDataIn v s
  | .flvPrevValid => { s with flvPrev := { s.flvPrev with valid := v.getLsbD 0 } }
  | .flvPrevDs => { s with flvPrev := { s.flvPrev with ds := v.setWidth 24 } }
  | _ => s

/-- A host write to register r: STATUS takes its write-1-to-clear bits whatever BUSY is; a read-only
register ignores the write whatever BUSY is; any other is refused while BUSY = 1, which sets BUSY_WRITE
(10_state R23, R42, 70_reset_and_hazards R261, log 8). -/
def hostWriteReg (r : Reg) (v : Word) (s : State) : State :=
  if r = .status then { s with status := s.status.writeOneToClear v }
  else if regWritable r then
    (if s.status.busy then { s with status := { s.status with busyWrite := true } } else writeReg r v s)
  else s

/-- The form of an access the bus refuses before any register is looked at (20_memory R65 (a), (b)). -/
def formError (a : BusAccess) : Option BusErrorKind :=
  if a.isWord then (if a.isAligned then none else some .misaligned) else some .narrow

/-- A read at a well-formed offset (20_memory R61, R65 (c)). -/
def hostRead (off : Word) (s : State) : Host.Outcome State Fault Refusal :=
  match busTarget s.cap.toNat off.toNat with
  | .reg r => .next (hostReadReg r s)
  | .window i => .next (hostReadWindow i s)
  | .unmapped => .fault (.busError .unmapped)

/-- A write at a well-formed offset (20_memory R61, R65 (c), (d)). -/
def hostWrite (off v : Word) (s : State) : Host.Outcome State Fault Refusal :=
  match busTarget s.cap.toNat off.toNat with
  | .reg r => .next (respond .writeOk (hostWriteReg r v s))
  | .window _ => .fault (.busError .windowWrite)
  | .unmapped => .fault (.busError .unmapped)

/-- One bus access of the host (20_memory R63, R65, R69). -/
def hostAccess (a : BusAccess) (s : State) : Host.Outcome State Fault Refusal :=
  match formError a with
  | some why => .fault (.busError why)
  | none =>
    match a with
    | .read _ off => hostRead off s
    | .write _ off v => hostWrite off v s

/-- One poll of a `WAIT` while BUSY = 0 (30_encoding R99): STATUS is read; with DONE = 1 the wait is over and
`rest` comes next, else the host polls again. -/
def hostPoll (rest : List Input) (s : State) : State :=
  let s := hostReadReg .status s
  if s.status.done then { s with inputs := rest } else s

/-- The environment of the next step, so that the engine's turn comes first: nothing is needed when no
input waits (log 1). -/
def engineFirst : List Input → List Input
  | [] => []
  | i :: rest => .engine :: i :: rest

end Sys2Proof.Machine
end

