-- ==== Sys2Proof/Machine/Adts.lean ====
section
/-! DEFINITION. ADTS_NEXT: the ADTS sync-word detector and frame-header parser (42_adts, 30_encoding R87 to R89). -/

namespace Sys2Proof.Machine

/-- An ADTS sync word at index i, below `len` (30_encoding R89). -/
def syncAt (m : Memory) (len i : Nat) : Option Unit :=
  if i + 1 < len ∧ Memory.read m i = 0xFF#8 ∧ (Memory.read m (i + 1)).extractLsb 7 4 = 0xF#4 then
    some ()
  else none

/-- The least index from `lo` with a sync word (42_adts R150, R151). -/
def firstSync (m : Memory) (len lo : Nat) : Option Nat :=
  (leastSome (syncAt m len) (len - lo) lo).map Prod.fst

/-- The header fields of the frame at `sy`, with FRAME_OFF and HDR_LEN (42_adts R150, 30_encoding R87, R88). -/
def adtsHeader (m : Memory) (sy : Nat) : GAdts :=
  let g := GAdts.zero.withHeader (Memory.read m (sy + 1)) (Memory.read m (sy + 2))
    (Memory.read m (sy + 3)) (Memory.read m (sy + 4)) (Memory.read m (sy + 5)) (Memory.read m (sy + 6))
  { g with
    frameOff := Word.ofN sy
    hdrLen := BitVec.ofNat 4 (adtsHeaderLen g.protAbsent) }

/-- The whole frame at `sy`: CRC for a 9-byte header, payload slice, consumption (42_adts R150, R155). -/
def adtsReport (l : Latch) (sy : Nat) (s : State) : State :=
  let hl := adtsHeaderLen s.adts.protAbsent
  let fl := s.adts.frameLength.toNat
  let crc := if hl = 9 then BitVec.ofNat 16 (memRead s.ibuf (sy + 7) 2) else s.adts.crc
  complete .ok
    (consumeTo l (sy + fl)
      { s with
        adts :=
          { s.adts with crc := crc, payOff := Word.ofN (sy + hl), payLen := Word.ofN (fl - hl) } })

/-- ADTS_NEXT from a sync word at `sy` on (42_adts R150; order of codes R158). -/
def adtsFromSync (l : Latch) (sy : Nat) (s : State) : State :=
  let so := sy - l.p0
  let s := { s with skipped := Word.ofN so }
  if l.len - sy < 7 then shortfall l (so + 7) s
  else
    let g := adtsHeader s.ibuf sy
    let s := { s with adts := g }
    let fl := g.frameLength.toNat
    if fl < adtsHeaderLen g.protAbsent then complete .malformedHeader s
    else if l.len - sy < fl then shortfall l (so + fl) s
    else adtsReport l sy s

/-- ADTS_NEXT after its start (42_adts R150, R151). -/
def adtsNextBody (l : Latch) (s : State) : State :=
  match firstSync s.ibuf l.len l.p0 with
  | none =>
    if l.avail = 0 then
      (if l.eos then complete .endOfStream s else complete .needMoreData s)
    else complete .noSyncWord s
  | some sy => adtsFromSync l sy s

/-- ADTS_NEXT (42_adts R150). -/
def execAdtsNext (s : State) : Host.Outcome State Fault Refusal :=
  .next (adtsNextBody s.latch (startCommand .adtsNext s))

end Sys2Proof.Machine
end

