-- ==== Sys2Proof/Machine/Cursor.lean ====
section
/-! DEFINITION. The cursor commands SEEK, ADVANCE, COMPACT and SOFT_RESET (40_cursor R120 to R123). -/

namespace Sys2Proof.Machine

/-- SEEK after its start (40_cursor R120). -/
def seekBody (l : Latch) (s : State) : State :=
  if l.len < l.arg then complete .cmdError s
  else complete .ok { s with pos := Word.ofN l.arg }

/-- SEEK (40_cursor R120). -/
def execSeek (s : State) : Host.Outcome State Fault Refusal :=
  .next (seekBody s.latch (startCommand .seek s))

/-- ADVANCE after its start (40_cursor R121). -/
def advanceBody (l : Latch) (s : State) : State :=
  if l.avail < l.arg then complete .cmdError s
  else complete .ok (consumeTo l (l.p0 + l.arg) s)

/-- ADVANCE (40_cursor R121). -/
def execAdvance (s : State) : Host.Outcome State Fault Refusal :=
  .next (advanceBody s.latch (startCommand .advance s))

/-- COMPACT after its start (40_cursor R122). -/
def compactBody (l : Latch) (s : State) : State :=
  complete .ok
    (cancelIterator
      { s with
        ibuf := Memory.compacted s.ibuf l.p0 l.len
        len := Word.ofN (l.len - l.p0)
        pos := 0#32 })

/-- COMPACT (40_cursor R122). -/
def execCompact (s : State) : Host.Outcome State Fault Refusal :=
  .next (compactBody s.latch (startCommand .compact s))

/-- SOFT_RESET (40_cursor R123): every register to its reset value, LAST_OP <- 0x1F, then `raise OK`. DEDUCED: it clears
OVERFLOW and BUSY_WRITE (log 11) and ARG (log 19), where other rules say that no command does. -/
def execSoftReset (s : State) : Host.Outcome State Fault Refusal :=
  let r := resetBlock s
  .next (complete .ok { r with status := { r.status with lastOp := Instr.softReset.opcode } })

end Sys2Proof.Machine
end

