-- ==== Sys2Proof/Machine/Amf.lean ====
section
/-! DEFINITION. The AMF decoder of FLV script tags (43_flv R190 to R196, 30_encoding R94). It runs on the
payload at IBUF index P of n bytes; the offset k is relative to the payload. -/

namespace Sys2Proof.Machine

/-- What the decoder works on: the offset k and the two groups it writes. -/
structure AmfCur where
  k : Nat
  amf : GAmf
  rows : Vector MetaRow 12
deriving DecidableEq, Repr

/-- A stage of the decoder: it goes on, or it has ended with a code (43_flv R190, `stop`). -/
abbrev AmfStep := Except (ResultCode × AmfCur) AmfCur

/-- `stop(c)` (43_flv R190): STOP_OFF <- k; PARTIAL <- 1 unless c is OK; the code is c. -/
def amfStop (c : ResultCode) (cur : AmfCur) : ResultCode × AmfCur :=
  (c, { cur with
        amf :=
          { cur.amf with
            stopOff := Word.ofN cur.k
            partialDecode := cur.amf.partialDecode || c != .ok } })

/-- `need(m)` (43_flv R190): m more payload bytes exist, or decoding stops. -/
def amfNeed (n m : Nat) (cur : AmfCur) : AmfStep :=
  if n < cur.k + m then .error (amfStop .malformedHeader cur) else .ok cur

/-- A type byte that is not decoded: STOP_TYPE <- t; stop(UNSUPPORTED_CODEC) (43_flv R192). -/
def amfUnsupported (t : Byte) (cur : AmfCur) : ResultCode × AmfCur :=
  amfStop .unsupportedCodec { cur with amf := { cur.amf with stopType := t } }

/-- The offset moved on by m bytes. -/
def AmfCur.skip (cur : AmfCur) (m : Nat) : AmfCur := { cur with k := cur.k + m }

/-- The ASCII bytes of "onMetaData" (43_flv R190). -/
def onMetaDataBytes : List Byte :=
  [0x6F#8, 0x6E#8, 0x4D#8, 0x65#8, 0x74#8, 0x61#8, 0x44#8, 0x61#8, 0x74#8, 0x61#8]

/-- The twelve recognised keys in row order, as ASCII bytes (10_state R36): duration, width, height,
videodatarate, framerate, videocodecid, audiodatarate, audiosamplerate, audiosamplesize, stereo,
audiocodecid, filesize. -/
def metaKeys : List (Fin 12 × List Byte) :=
  [(0, [0x64#8, 0x75#8, 0x72#8, 0x61#8, 0x74#8, 0x69#8, 0x6F#8, 0x6E#8]),
   (1, [0x77#8, 0x69#8, 0x64#8, 0x74#8, 0x68#8]),
   (2, [0x68#8, 0x65#8, 0x69#8, 0x67#8, 0x68#8, 0x74#8]),
   (3, [0x76#8, 0x69#8, 0x64#8, 0x65#8, 0x6F#8, 0x64#8, 0x61#8, 0x74#8, 0x61#8, 0x72#8, 0x61#8,
        0x74#8, 0x65#8]),
   (4, [0x66#8, 0x72#8, 0x61#8, 0x6D#8, 0x65#8, 0x72#8, 0x61#8, 0x74#8, 0x65#8]),
   (5, [0x76#8, 0x69#8, 0x64#8, 0x65#8, 0x6F#8, 0x63#8, 0x6F#8, 0x64#8, 0x65#8, 0x63#8, 0x69#8,
        0x64#8]),
   (6, [0x61#8, 0x75#8, 0x64#8, 0x69#8, 0x6F#8, 0x64#8, 0x61#8, 0x74#8, 0x61#8, 0x72#8, 0x61#8,
        0x74#8, 0x65#8]),
   (7, [0x61#8, 0x75#8, 0x64#8, 0x69#8, 0x6F#8, 0x73#8, 0x61#8, 0x6D#8, 0x70#8, 0x6C#8, 0x65#8,
        0x72#8, 0x61#8, 0x74#8, 0x65#8]),
   (8, [0x61#8, 0x75#8, 0x64#8, 0x69#8, 0x6F#8, 0x73#8, 0x61#8, 0x6D#8, 0x70#8, 0x6C#8, 0x65#8,
        0x73#8, 0x69#8, 0x7A#8, 0x65#8]),
   (9, [0x73#8, 0x74#8, 0x65#8, 0x72#8, 0x65#8, 0x6F#8]),
   (10, [0x61#8, 0x75#8, 0x64#8, 0x69#8, 0x6F#8, 0x63#8, 0x6F#8, 0x64#8, 0x65#8, 0x63#8, 0x69#8,
         0x64#8]),
   (11, [0x66#8, 0x69#8, 0x6C#8, 0x65#8, 0x73#8, 0x69#8, 0x7A#8, 0x65#8])]

/-- The row of the key of j bytes at index i: same length, same bytes, case-sensitive (43_flv R191). -/
def metaKeyRow (m : Memory) (i j : Nat) : Option (Fin 12) :=
  (metaKeys.find? fun e => j == e.2.length && bytesAt m i j == e.2).map Prod.fst

/-- `store(key, type, hi, lo)` (43_flv R191): the row of a recognised key is written, the last value wins;
another key writes nothing. -/
def amfStore (row : Option (Fin 12)) (type : Byte) (hi lo : Word) (cur : AmfCur) : AmfCur :=
  match row with
  | some i => { cur with rows := cur.rows.set i.val ⟨true, type, hi, lo⟩ }
  | none => cur

/-- The first value: a String, the name (43_flv R190, R196). -/
def amfName (m : Memory) (p n : Nat) (cur : AmfCur) : AmfStep := do
  let cur ← amfNeed n 1 cur
  let t := Memory.read m (p + cur.k)
  if t ≠ 0x02#8 then .error (amfUnsupported t cur)
  else
    let cur ← amfNeed n 2 (cur.skip 1)
    let len := memRead m (p + cur.k) 2
    let cur ← amfNeed n len (cur.skip 2)
    .ok
      { cur with
        k := cur.k + len
        amf :=
          { cur.amf with
            nameOff := Word.ofN (p + cur.k)
            nameLen := Word.ofN len
            nameIsOnMetaData := len == 10 && bytesAt m (p + cur.k) len == onMetaDataBytes } }

/-- The head of the second value: an ECMA array's type byte and element count (43_flv R190).
The count is left in AMF_COUNT. -/
def amfArrayHead (m : Memory) (p n : Nat) (cur : AmfCur) : AmfStep := do
  let t := Memory.read m (p + cur.k)
  if t ≠ 0x08#8 then .error (amfUnsupported t cur)
  else
    let cur ← amfNeed n 4 (cur.skip 1)
    .ok
      { cur with
        k := cur.k + 4
        amf :=
          { cur.amf with
            arrayPresent := true
            count := Word.ofN (memRead m (p + cur.k) 4) } }

/-- The value of a pair, from its type byte on (43_flv R190, R191, R192). -/
def amfValue (m : Memory) (p n : Nat) (row : Option (Fin 12)) (cur : AmfCur) : AmfStep := do
  let cur ← amfNeed n 1 cur
  let t := Memory.read m (p + cur.k)
  if t = 0x00#8 then
    let cur ← amfNeed n 8 (cur.skip 1)
    .ok ((amfStore row t (Word.ofN (memRead m (p + cur.k) 4)) (Word.ofN (memRead m (p + cur.k + 4) 4))
      cur).skip 8)
  else if t = 0x01#8 then
    let cur ← amfNeed n 1 (cur.skip 1)
    .ok ((amfStore row t 0#32 ((Memory.read m (p + cur.k)).setWidth 32) cur).skip 1)
  else if t = 0x02#8 then
    let cur ← amfNeed n 2 (cur.skip 1)
    let len := memRead m (p + cur.k) 2
    let cur ← amfNeed n len (cur.skip 2)
    .ok ((amfStore row t (Word.ofN len) (Word.ofN (p + cur.k)) cur).skip len)
  else .error (amfUnsupported t cur)

/-- One key/value pair; AMF_PAIRS counts the pairs fully decoded (43_flv R190). -/
def amfPair (m : Memory) (p n : Nat) (cur : AmfCur) : AmfStep := do
  let cur ← amfNeed n 2 cur
  let j := memRead m (p + cur.k) 2
  let cur ← amfNeed n j (cur.skip 2)
  let row := metaKeyRow m (p + cur.k) j
  let cur ← amfValue m p n row (cur.skip j)
  .ok { cur with amf := { cur.amf with pairs := Word.ofN (cur.amf.pairs.toNat + 1) } }

/-- `repeat cnt times` (43_flv R190); the loop ends at the first stop (R196 (g)). -/
def amfPairs (m : Memory) (p n : Nat) : Nat → AmfCur → AmfStep
  | 0, cur => .ok cur
  | cnt + 1, cur => amfPair m p n cur >>= amfPairs m p n cnt

/-- The end marker 00 00 09 and the exact length (43_flv R190, R194). -/
def amfEnd (m : Memory) (p n : Nat) (cur : AmfCur) : ResultCode × AmfCur :=
  match amfNeed n 3 cur with
  | .error e => e
  | .ok cur =>
    if memRead m (p + cur.k) 3 ≠ 0x000009 then amfStop .malformedHeader cur
    else
      let cur := { cur with k := cur.k + 3, amf := { cur.amf with endSeen := true } }
      if cur.k ≠ n then amfStop .malformedHeader cur else amfStop .ok cur

/-- The second value, run when bytes are left after the name (43_flv R190). -/
def amfArray (m : Memory) (p n : Nat) (cur : AmfCur) : ResultCode × AmfCur :=
  match amfArrayHead m p n cur >>= fun c => amfPairs m p n c.amf.count.toNat c with
  | .error e => e
  | .ok cur => amfEnd m p n cur

/-- `amf_decode(P, n)` (43_flv R190): the code it ends in and what it has written. -/
def amfDecode (m : Memory) (p n : Nat) (amf : GAmf) (rows : Vector MetaRow 12) : ResultCode × AmfCur :=
  match amfName m p n ⟨0, { amf with decoded := true }, rows⟩ with
  | .error e => e
  | .ok cur => if cur.k = n then amfStop .ok cur else amfArray m p n cur

end Sys2Proof.Machine
end

