-- ==== Sys2Proof/Machine/Flv.lean ====
section
/-! DEFINITION. FLV_HEADER and FLV_NEXT_TAG (43_flv, 30_encoding R90 to R93). -/

namespace Sys2Proof.Machine

/-- The file header at p0 stored, and the previous-tag state started anew (43_flv R170, R173). -/
def storeFlvHeader (p0 : Nat) (s : State) : State :=
  { s with
    flvh := ⟨Memory.read s.ibuf (p0 + 3), Memory.read s.ibuf (p0 + 4), Word.ofN (memRead s.ibuf (p0 + 5) 4)⟩
    flvPrev := .zero }

/-- FLV_HEADER after its start (43_flv R170 to R173). -/
def flvHeaderBody (l : Latch) (s : State) : State :=
  if l.avail < 9 then shortfall l 9 s
  else if memRead s.ibuf l.p0 3 ≠ Config.flvSignature then complete .malformedHeader s
  else
    let s := storeFlvHeader l.p0 s
    let d := memRead s.ibuf (l.p0 + 5) 4
    if l.avail < d then shortfall l d s
    else complete .ok (consumeTo l (l.p0 + d) s)

/-- FLV_HEADER (43_flv R170). -/
def execFlvHeader (s : State) : Host.Outcome State Fault Refusal :=
  .next (flvHeaderBody s.latch (startCommand .flvHeader s))

/-- data_size of the tag whose header is at `t` (30_encoding R91). -/
def flvDataSize (m : Memory) (t : Nat) : Nat := memRead m (t + 1) 3

/-- The tag part of G_FLVT, written as soon as 15 bytes are present (43_flv R180, R182, R186). -/
def storeTagHeader (p0 : Nat) (s : State) : State :=
  let t := p0 + 4
  let ds := flvDataSize s.ibuf t
  { s with
    flvt :=
      { s.flvt with
        prevSize := Word.ofN (memRead s.ibuf p0 4)
        tagType := Memory.read s.ibuf t
        kind := tagKind (Memory.read s.ibuf t)
        reservedHi := Memory.read s.ibuf (t + 7)
        dataSize := BitVec.ofNat 24 ds
        timestamp := BitVec.ofNat 24 (memRead s.ibuf (t + 4) 3)
        streamId := BitVec.ofNat 24 (memRead s.ibuf (t + 8) 3)
        tagOff := Word.ofN t
        payOff := Word.ofN (t + 11)
        emitPts := Word.ofN (11 + ds) } }

/-- The whole tag is buffered: cross-validate its PreviousTagSize, remember its data_size, consume it
(43_flv R180, R181, R183). -/
def consumeTag (l : Latch) (s : State) : State :=
  let ds := flvDataSize s.ibuf (l.p0 + 4)
  consumeTo l (l.p0 + (15 + ds))
    { s with
      flvt :=
        { s.flvt with
          ptsChecked := s.flvPrev.valid
          ptsMismatch := s.flvPrev.valid && memRead s.ibuf l.p0 4 != 11 + s.flvPrev.ds.toNat }
      flvPrev := ⟨true, BitVec.ofNat 24 ds⟩ }

/-- An Audio tag's payload of ds bytes at p (43_flv R184). -/
def flvAudioTag (p ds : Nat) (s : State) : State :=
  if ds = 0 then complete .malformedHeader s
  else
    complete .ok
      { s with
        flvt :=
          { s.flvt with
            audio := Memory.read s.ibuf p
            esOff := Word.ofN (p + 1)
            esLen := Word.ofN (ds - 1) } }

/-- A Video tag's payload of ds bytes at p (43_flv R185). -/
def flvVideoTag (p ds : Nat) (s : State) : State :=
  if ds = 0 then complete .malformedHeader s
  else
    complete .ok
      { s with
        flvt :=
          { s.flvt with
            video := Memory.read s.ibuf p
            esOff := Word.ofN (p + 1)
            esLen := Word.ofN (ds - 1) } }

/-- A Script tag's payload of ds bytes at p (43_flv R190). -/
def flvScriptTag (p ds : Nat) (s : State) : State :=
  let r := amfDecode s.ibuf p ds s.amf s.metaRows
  complete r.1 { s with amf := r.2.amf, metaRows := r.2.rows }

/-- The dispatch by KIND (43_flv R180, R182, R187). -/
def flvPayload (kind : TagKind) (p ds : Nat) (s : State) : State :=
  match kind with
  | .audio => flvAudioTag p ds s
  | .video => flvVideoTag p ds s
  | .script => flvScriptTag p ds s
  | .unknown => complete .unsupportedTagType s

/-- FLV_NEXT_TAG after its start (43_flv R180). -/
def flvNextTagBody (l : Latch) (s : State) : State :=
  if l.avail < 15 then
    (if l.eos then complete .endOfStream s else shortfall l 15 s)
  else
    let ds := flvDataSize s.ibuf (l.p0 + 4)
    let s := storeTagHeader l.p0 s
    if l.avail < 15 + ds then shortfall l (15 + ds) s
    else flvPayload s.flvt.kind (l.p0 + 15) ds (consumeTag l s)

/-- FLV_NEXT_TAG (43_flv R180). -/
def execFlvNextTag (s : State) : Host.Outcome State Fault Refusal :=
  .next (flvNextTagBody s.latch (startCommand .flvNextTag s))

end Sys2Proof.Machine
end

