-- ==== Sys2Proof/Machine/Nal.lean ====
section
/-! DEFINITION. NAL_NEXT: the H.264 start-code scanner with frame resynchroniser (41_nal, 30_encoding R85, R86). -/

namespace Sys2Proof.Machine

/-- `SC(i)` given the bytes below `len`: 4, 3 or none, the 4-byte pattern first (30_encoding R85). -/
def startCode (m : Memory) (len i : Nat) : Option Nat :=
  if i + 3 < len ∧ memRead m i 4 = 0x00000001 then some 4
  else if i + 2 < len ∧ memRead m i 3 = 0x000001 then some 3
  else none

/-- The least index from `lo` with a start code, and the code's length (41_nal R130, R131). -/
def firstStartCode (m : Memory) (len lo : Nat) : Option (Nat × Nat) :=
  leastSome (startCode m len) (len - lo) lo

/-- The report of a unit with start code of `c` bytes at `sc` and end `e` (41_nal R130, R134). -/
def nalReport (l : Latch) (sc c e : Nat) (s : State) : State :=
  let q := sc + c
  let g : GNal :=
    { GNal.zero with
      scLen := BitVec.ofNat 3 c
      scOff := Word.ofN sc
      payOff := Word.ofN q
      payLen := Word.ofN (e - q) }
  let g := if q < e then g.withHeader (Memory.read s.ibuf q) else g
  complete .ok (consumeTo l e { s with nal := g, skipped := Word.ofN (sc - l.p0) })

/-- NAL_NEXT after its start (41_nal R130; order of codes R135). -/
def nalNextBody (l : Latch) (s : State) : State :=
  match firstStartCode s.ibuf l.len l.p0 with
  | none =>
    if l.eos then
      (if l.avail = 0 then complete .endOfStream s else complete .noStartCode s)
    else shortfall l (l.avail + 1) s
  | some (sc, c) =>
    match firstStartCode s.ibuf l.len (sc + c) with
    | some (e, _) => nalReport l sc c e s
    | none => if l.eos then nalReport l sc c l.len s else shortfall l (l.avail + 1) s

/-- NAL_NEXT (41_nal R130). -/
def execNalNext (s : State) : Host.Outcome State Fault Refusal :=
  .next (nalNextBody s.latch (startCommand .nalNext s))

end Sys2Proof.Machine
end

