-- ==== Sys2Proof/Machine/Rtp.lean ====
section
/-! DEFINITION. RTP_PARSE and TS_NEXT: the RTP fixed-header extractor and the MPEG-TS stride scan
(44_rtp, 30_encoding R95, R96). -/

namespace Sys2Proof.Machine

/-- The twelve header bytes at p0 and the slices of a datagram of n bytes (44_rtp R210, R211). -/
def rtpHeader (m : Memory) (p0 n : Nat) : GRtp :=
  { GRtp.zero.withFlags (Memory.read m p0) (Memory.read m (p0 + 1)) with
    seq := BitVec.ofNat 16 (memRead m (p0 + 2) 2)
    timestamp := Word.ofN (memRead m (p0 + 4) 4)
    ssrc := Word.ofN (memRead m (p0 + 8) 4)
    dgramOff := Word.ofN p0
    payOff := Word.ofN (p0 + 12)
    payLen := Word.ofN (n - 12) }

/-- Payload type 33 counts the whole strides and arms the iterator over [p0 + 12, p0 + n) (44_rtp R210, R214). -/
def armStrides (p0 n : Nat) (s : State) : State :=
  { s with
    rtp :=
      { s.rtp with
        tsCount := Word.ofN ((n - 12) / Config.tsStride)
        tsResidue := Word.ofN ((n - 12) % Config.tsStride) }
    tsIter := ⟨true, 0#16, Word.ofN (p0 + 12), Word.ofN (p0 + n)⟩ }

/-- RTP_PARSE after its start (44_rtp R210, R212). -/
def rtpParseBody (l : Latch) (s : State) : State :=
  let n := l.arg
  let s := cancelIterator s
  if l.avail < n then shortfall l n s
  else if n < 12 then complete .truncated (consumeTo l (l.p0 + n) s)
  else
    let g := rtpHeader s.ibuf l.p0 n
    let s := consumeTo l (l.p0 + n) { s with rtp := g }
    if g.payloadType.toNat = Config.tsPayloadType then complete .ok (armStrides l.p0 n s)
    else complete .ok s

/-- RTP_PARSE (44_rtp R210). -/
def execRtpParse (s : State) : Host.Outcome State Fault Refusal :=
  .next (rtpParseBody s.latch (startCommand .rtpParse s))

/-- TS_NEXT on a stride at `x` with its sync byte: the packet's fields, and the iterator advanced
(44_rtp R220, 30_encoding R96). NEXT_INDEX counts modulo 2^16 (R222 (e)). -/
def tsReport (x : Nat) (s : State) : State :=
  let g := s.ts.withHeader (Memory.read s.ibuf (x + 1)) (Memory.read s.ibuf (x + 2))
    (Memory.read s.ibuf (x + 3))
  complete .ok
    { s with
      ts := { g with payOff := Word.ofN (x + 4), payLen := 184#32 }
      tsIter :=
        { s.tsIter with
          nextOff := Word.ofN (x + Config.tsStride)
          nextIndex := s.tsIter.nextIndex + 1#16 } }

/-- TS_NEXT after its start (44_rtp R220, R221). -/
def tsNextBody (s : State) : State :=
  if s.tsIter.active then
    let x := s.tsIter.nextOff.toNat
    if s.tsIter.endOff.toNat - x < Config.tsStride then complete .endOfStream (cancelIterator s)
    else
      let s :=
        { s with
          ts :=
            { s.ts with
              pktOff := s.tsIter.nextOff
              index := s.tsIter.nextIndex.setWidth 32
              syncByte := Memory.read s.ibuf x } }
      if Memory.read s.ibuf x = Config.tsSyncByte then tsReport x s
      else complete .malformedHeader (cancelIterator s)
  else complete .endOfStream s

/-- TS_NEXT (44_rtp R220). -/
def execTsNext (s : State) : Host.Outcome State Fault Refusal :=
  .next (tsNextBody (startCommand .tsNext s))

end Sys2Proof.Machine
end

