-- ==== Sys2Proof/Machine/Dispatch.lean ====
section
/-! DEFINITION. exec: the engine's run of one command, one arm per row of the opcode map (30_encoding R81). -/

namespace Sys2Proof.Machine

def exec (i : Instr) (s : State) : Host.Outcome State Fault Refusal :=
  match i with
  | .nalNext => Sys2Proof.Machine.execNalNext s
  | .adtsNext => Sys2Proof.Machine.execAdtsNext s
  | .flvHeader => Sys2Proof.Machine.execFlvHeader s
  | .flvNextTag => Sys2Proof.Machine.execFlvNextTag s
  | .rtpParse => Sys2Proof.Machine.execRtpParse s
  | .tsNext => Sys2Proof.Machine.execTsNext s
  | .seek => Sys2Proof.Machine.execSeek s
  | .advance => Sys2Proof.Machine.execAdvance s
  | .compact => Sys2Proof.Machine.execCompact s
  | .softReset => Sys2Proof.Machine.execSoftReset s

end Sys2Proof.Machine
end

