-- ==== Sys2Proof/Machine/Step.lean ====
section
/-! DEFINITION. One step of the machine (00_scope R5): one host bus access, or one atomic command execution, or
a reset. Everything it does is in the operations it calls. -/

namespace Sys2Proof.Machine

/-- The engine runs the command word w: a defined command has its meaning, a reserved one completes with
CMD_ERROR (30_encoding R82, R84). -/
def runCommandWord (w : Word) (s : State) : Host.Outcome State Fault Refusal :=
  match decode w with
  | .ok i => exec i s
  | .error _ => .next (completeReserved s)

/-- The engine's turn: it runs the command in progress to completion, or stays idle (60_exceptions R233,
70_reset_and_hazards R252). -/
def engineTurn (s : State) : Host.Outcome State Fault Refusal :=
  match s.commandInProgress with
  | some w => runCommandWord w s
  | none => .next s

/-- One step (00_scope R5, log 1, log 2). With no input waiting the engine has its turn
(70_reset_and_hazards R271); while the host waits on a busy block the engine has its turn.
Reset is one step of its own: DEDUCED that it falls between two steps (log 16), DESIGN CHOICE that it is not held
over host accesses (log 20). -/
def step (s : State) : Host.Outcome State Fault Refusal :=
  match s.inputs with
  | [] => engineTurn s
  | .engine :: rest => engineTurn { s with inputs := rest }
  | .access a :: rest => hostAccess a { s with inputs := rest }
  | .wait :: rest => if s.status.busy then engineTurn s else .next (hostPoll rest s)
  | .resetPin :: rest => .next (resetBlock { s with inputs := rest })

/-- The state in which the CMD write of the low `nbits` bits of `w` has just been accepted and the engine's
turn is next: the block fetches nothing (20_memory R73), so this stands for the host's CMD write (log 1). -/
def State.withFetchWord (s : State) (nbits w : Nat) : State :=
  acceptCommand (BitVec.ofNat 32 (w % 2 ^ nbits)) { s with inputs := engineFirst s.inputs }

end Sys2Proof.Machine
end

