-- ==== Sys2Proof/Safety.lean ====
section
/-! DEFINITION. What claims are stated in: the invariant of the machine, legal accesses, the declarative
readings of the spec's searches (30_encoding R85, R89), sessions of one command, and AMF payloads as values. -/

namespace Sys2Proof.Machine

/-! ## The invariant -/

/-- The bounds of the cursor and of the TS iterator (10_state R26, 00_scope R6, 44_rtp R214). -/
structure State.CursorInv (s : State) : Prop where
  cap_min : Config.capMin ≤ s.cap.toNat
  cap_max : s.cap.toNat ≤ Config.capMax
  pos_le_len : s.pos.toNat ≤ s.len.toNat
  len_le_cap : s.len.toNat ≤ s.cap.toNat
  iter_order : s.tsIter.active = true → s.tsIter.nextOff.toNat ≤ s.tsIter.endOff.toNat
  iter_end : s.tsIter.active = true → s.tsIter.endOff.toNat ≤ s.len.toNat

/-- The invariant of the machine: the cursor bounds, IBUF in its canonical form with no entry at or above
LEN, and what the fields that are not free can hold. -/
structure State.Inv (s : State) : Prop extends State.CursorInv s where
  mem_wf : Memory.wf s.ibuf
  mem_below : Memory.below s.ibuf s.len.toNat
  /-- a cancelled iterator is all 0 (44_rtp R214) -/
  iter_idle : s.tsIter.active = false → s.tsIter = TsIter.zero
  /-- DONE is cleared by acceptance and set by completion (10_state R23) -/
  busy_not_done : s.status.busy = true → s.status.done = false
  /-- CONSUMED is part of what the cursor has moved over (10_state R27) -/
  consumed_le_pos : s.consumed.toNat ≤ s.pos.toNat
  /-- SC_LEN is 3 or 4 for a unit and 0 when none is reported (10_state R29) -/
  scLen_legal : s.nal.scLen = 0#3 ∨ s.nal.scLen = 3#3 ∨ s.nal.scLen = 4#3
  /-- HDR_LEN is 7 or 9, and 0 when no header was decoded (10_state R30) -/
  hdrLen_legal : s.adts.hdrLen = 0#4 ∨ s.adts.hdrLen = 7#4 ∨ s.adts.hdrLen = 9#4
  /-- a mismatch is found only by a check (10_state R32) -/
  mismatch_checked : s.flvt.ptsMismatch = true → s.flvt.ptsChecked = true
  /-- only the decoder marks a script partial (10_state R34) -/
  partial_decoded : s.amf.partialDecode = true → s.amf.decoded = true
  /-- a row no value was decoded for is 0 (10_state R36) -/
  meta_absent : ∀ i, (s.metaRows.get i).present = false → s.metaRows.get i = MetaRow.zero
  /-- AMF_TYPE is Number, Boolean or String (10_state R36) -/
  meta_type : ∀ i, (s.metaRows.get i).amfType.toNat ≤ 2
  /-- 184 for a decoded packet, else 0 (10_state R38) -/
  tsPayLen_legal : s.ts.payLen = 0#32 ∨ s.ts.payLen = 184#32

/-! ## Legal accesses -/

/-- The offset lies in the window (10_state R41). -/
def InWindow (cap off : Nat) : Prop := Config.winBase ≤ off ∧ off < Config.winBase + 4 * cap

/-- Something is mapped at the offset (20_memory R61). -/
def Mapped (cap off : Nat) : Prop := (∃ r : Reg, r.offset = off) ∨ InWindow cap off

/-- An access that gets no bus error (20_memory R65). -/
def AccessLegal (cap : Nat) (a : BusAccess) : Prop :=
  a.width = .word ∧ a.offset.toNat % 4 = 0 ∧ Mapped cap a.offset.toNat ∧
    (∀ w off v, a = .write w off v → ¬ InWindow cap a.offset.toNat)

/-- A host is safe when each access it still has to make is legal (70_reset_and_hazards R267 row 13). -/
def HostSafe (s : State) : Prop := ∀ a, Input.access a ∈ s.inputs → AccessLegal s.cap.toNat a

/-! ## The register map -/

/-! Each row: byte offset, register, and the word it reads as, from the fields of the state (20_memory R61). -/

/-- Identity, control and cursor registers (10_state R21 to R28). -/
def controlMap (s : State) : List (Nat × Reg × Word) :=
  [(0x000, .id, 0x44534231#32), (0x004, .ctrl, s.ctrl.toWord), (0x008, .status, s.status.toWord),
   (0x00C, .cmd, 0#32), (0x010, .arg, s.arg), (0x014, .pos, s.pos), (0x018, .len, s.len),
   (0x01C, .dataIn, 0#32), (0x020, .cap, s.cap), (0x024, .consumed, s.consumed),
   (0x028, .skipped, s.skipped)]

/-- G_NAL (10_state R29). -/
def nalMap (s : State) : List (Nat × Reg × Word) :=
  [(0x040, .nalInfo, s.nal.infoWord), (0x044, .nalScOff, s.nal.scOff), (0x048, .nalPayOff, s.nal.payOff),
   (0x04C, .nalPayLen, s.nal.payLen)]

/-- G_ADTS (10_state R30). -/
def adtsMap (s : State) : List (Nat × Reg × Word) :=
  [(0x060, .adtsHdr, s.adts.hdrWord), (0x064, .adtsLen, s.adts.lenWord),
   (0x068, .adtsFrameOff, s.adts.frameOff), (0x06C, .adtsPayOff, s.adts.payOff),
   (0x070, .adtsPayLen, s.adts.payLen), (0x074, .adtsCrc, s.adts.crc.setWidth 32)]

/-- G_FLVH (10_state R31). -/
def flvhMap (s : State) : List (Nat × Reg × Word) :=
  [(0x080, .flvHdr, s.flvh.hdrWord), (0x084, .flvDataOffset, s.flvh.dataOffset)]

/-- G_FLVT (10_state R32, R33). -/
def flvtMap (s : State) : List (Nat × Reg × Word) :=
  [(0x090, .flvTag, s.flvt.tagWord), (0x094, .flvPrevSize, s.flvt.prevSize),
   (0x098, .flvDataSize, s.flvt.dataSize.setWidth 32), (0x09C, .flvTimestamp, s.flvt.timestamp.setWidth 32),
   (0x0A0, .flvStreamId, s.flvt.streamId.setWidth 32), (0x0A4, .flvTagOff, s.flvt.tagOff),
   (0x0A8, .flvPayOff, s.flvt.payOff), (0x0AC, .flvEmitPts, s.flvt.emitPts),
   (0x0B0, .flvAudio, s.flvt.audio.setWidth 32), (0x0B4, .flvVideo, s.flvt.video.setWidth 32),
   (0x0B8, .flvEsOff, s.flvt.esOff), (0x0BC, .flvEsLen, s.flvt.esLen)]

/-- G_AMF (10_state R34). -/
def amfMap (s : State) : List (Nat × Reg × Word) :=
  [(0x0C0, .amfStatus, s.amf.statusWord), (0x0C4, .amfNameOff, s.amf.nameOff),
   (0x0C8, .amfNameLen, s.amf.nameLen), (0x0CC, .amfCount, s.amf.count), (0x0D0, .amfPairs, s.amf.pairs),
   (0x0D4, .amfStopOff, s.amf.stopOff)]

/-- The FLV previous-tag state (10_state R35). -/
def flvPrevMap (s : State) : List (Nat × Reg × Word) :=
  [(0x0D8, .flvPrevValid, (BitVec.ofBool s.flvPrev.valid).setWidth 32),
   (0x0DC, .flvPrevDs, s.flvPrev.ds.setWidth 32)]

/-- G_RTP (10_state R37). -/
def rtpMap (s : State) : List (Nat × Reg × Word) :=
  [(0x200, .rtpHdr, s.rtp.hdrWord), (0x204, .rtpSeq, s.rtp.seq.setWidth 32),
   (0x208, .rtpTimestamp, s.rtp.timestamp), (0x20C, .rtpSsrc, s.rtp.ssrc),
   (0x210, .rtpDgramOff, s.rtp.dgramOff), (0x214, .rtpPayOff, s.rtp.payOff),
   (0x218, .rtpPayLen, s.rtp.payLen), (0x21C, .rtpTsCount, s.rtp.tsCount),
   (0x220, .rtpTsResidue, s.rtp.tsResidue)]

/-- G_TS and the TS iterator (10_state R38, R39). -/
def tsMap (s : State) : List (Nat × Reg × Word) :=
  [(0x240, .tsHdr, s.ts.hdrWord), (0x244, .tsPid, s.ts.pid.setWidth 32), (0x248, .tsPktOff, s.ts.pktOff),
   (0x24C, .tsPayOff, s.ts.payOff), (0x250, .tsPayLen, s.ts.payLen), (0x254, .tsIndex, s.ts.index),
   (0x258, .tsIter, s.tsIter.word), (0x25C, .tsNextOff, s.tsIter.nextOff),
   (0x260, .tsEndOff, s.tsIter.endOff)]

/-- Row `i` of the META table, at 0x100 + 16 i (10_state R36). -/
def metaRowMap (s : State) (i : Fin 12) : List (Nat × Reg × Word) :=
  [(0x100 + 16 * i.val, .metaInfo i, (s.metaRows.get i).infoWord),
   (0x104 + 16 * i.val, .metaHi i, (s.metaRows.get i).hi),
   (0x108 + 16 * i.val, .metaLo i, (s.metaRows.get i).lo),
   (0x10C + 16 * i.val, .metaReserved i, 0#32)]

/-- The whole register map (20_memory R61). -/
def registerMap (s : State) : List (Nat × Reg × Word) :=
  controlMap s ++ nalMap s ++ adtsMap s ++ flvhMap s ++ flvtMap s ++ amfMap s ++ flvPrevMap s ++
    rtpMap s ++ tsMap s ++ (List.finRange 12).flatMap (metaRowMap s)

/-! ## Start codes and sync words -/

/-- A start code of `c` bytes at index `i`, all of it below `len` (30_encoding R85). -/
def StartCodeAt (m : Memory) (len i c : Nat) : Prop :=
  (c = 4 ∧ i + 3 < len ∧ Memory.read m i = 0x00#8 ∧ Memory.read m (i + 1) = 0x00#8 ∧
      Memory.read m (i + 2) = 0x00#8 ∧ Memory.read m (i + 3) = 0x01#8) ∨
    (c = 3 ∧ i + 2 < len ∧ Memory.read m i = 0x00#8 ∧ Memory.read m (i + 1) = 0x00#8 ∧
      Memory.read m (i + 2) = 0x01#8)

/-- No start code at or after `lo`. -/
def NoStartCodeFrom (m : Memory) (len lo : Nat) : Prop := ∀ i c, lo ≤ i → ¬ StartCodeAt m len i c

/-- The least start code at or after `lo` (41_nal R131). -/
def FirstStartCodeAt (m : Memory) (len lo i c : Nat) : Prop :=
  lo ≤ i ∧ StartCodeAt m len i c ∧ ∀ j d, lo ≤ j → j < i → ¬ StartCodeAt m len j d

/-- An ADTS sync word at index `i` (30_encoding R89). -/
def SyncWordAt (m : Memory) (len i : Nat) : Prop :=
  i + 1 < len ∧ Memory.read m i = 0xFF#8 ∧ (Memory.read m (i + 1)).toNat / 16 = 0xF

/-- The least sync word at or after `lo` (42_adts R151). -/
def FirstSyncWordAt (m : Memory) (len lo i : Nat) : Prop :=
  lo ≤ i ∧ SyncWordAt m len i ∧ ∀ j, lo ≤ j → j < i → ¬ SyncWordAt m len j

/-! ## Results -/

/-- The codes a command can end in (60_exceptions R230, and each command's own list). -/
def raisable : Instr → List ResultCode
  | .nalNext => [.ok, .endOfStream, .noStartCode, .needMoreData, .capacityExceeded]
  | .adtsNext =>
    [.ok, .endOfStream, .needMoreData, .noSyncWord, .malformedHeader, .truncated, .capacityExceeded]
  | .flvHeader => [.ok, .malformedHeader, .needMoreData, .truncated, .capacityExceeded]
  | .flvNextTag =>
    [.ok, .endOfStream, .needMoreData, .truncated, .capacityExceeded, .malformedHeader,
     .unsupportedTagType, .unsupportedCodec]
  | .rtpParse => [.ok, .truncated, .needMoreData, .capacityExceeded]
  | .tsNext => [.ok, .endOfStream, .malformedHeader]
  | .seek | .advance => [.ok, .cmdError]
  | .compact | .softReset => [.ok]

/-- The results with which a command moves POS forward over input (60_exceptions R234). -/
def consumes : Instr → ResultCode → Bool
  | .nalNext, .ok | .adtsNext, .ok | .flvHeader, .ok | .flvNextTag, .ok | .rtpParse, .ok
  | .advance, .ok => true
  | .flvNextTag, .unsupportedTagType | .flvNextTag, .unsupportedCodec
  | .flvNextTag, .malformedHeader => true
  | .rtpParse, .truncated => true
  | _, _ => false

/-- The engine's run of command `i` right after the acceptance of its CMD write. -/
def issue (i : Instr) (s : State) : Host.Outcome State Fault Refusal :=
  exec i (acceptCommand (encode i) s)

/-- A session: command `i` issued again and again with nothing in between, each time ending in OK; the
list holds the state after each, the last argument is where it stands. -/
inductive OkSession (i : Instr) : State → List State → State → Prop where
  | done (s : State) : OkSession i s [] s
  | more {s t u : State} {ts : List State} (h : issue i s = .next t) (hok : t.status.code = .ok)
      (rest : OkSession i t ts u) : OkSession i s (t :: ts) u

/-- The command in progress in `s` is `i` (10_state R24, 30_encoding R84). -/
def Running (s : State) (i : Instr) : Prop :=
  s.status.busy = true ∧ decode (s.status.lastOp.setWidth 32) = .ok i

/-- The engine has its turn in `s`: no input waits, the head says so, or the host waits on a busy block. -/
def EngineTurnNext (s : State) : Prop :=
  s.inputs = [] ∨ s.inputs.head? = some .engine ∨ (s.inputs.head? = some .wait ∧ s.status.busy = true)

/-! ## The AMF decoder's stops (43_flv R190) -/

/-- `stop(MALFORMED_HEADER)` where decoding stands: PARTIAL = 1 and STOP_OFF = k, all else as it was. -/
def amfMalformed (cur : AmfCur) : ResultCode × AmfCur :=
  (.malformedHeader,
    { cur with amf := { cur.amf with partialDecode := true, stopOff := Word.ofN cur.k } })

/-- The bytes of an ASCII text. -/
def ascii (text : String) : List Byte := text.toList.map fun c => BitVec.ofNat 8 c.toNat

/-! ## AMF payloads as values (30_encoding R94) -/

/-- A value the decoder reads. -/
inductive AmfScalar where
  | number (hi lo : Word)
  | boolean (b : Byte)
  | text (bytes : List Byte)
deriving DecidableEq, Repr

/-- A number below 2^16 as two big-endian bytes. -/
def bytes16 (n : Nat) : List Byte := [BitVec.ofNat 8 (n / 256), BitVec.ofNat 8 n]

/-- A number below 2^32 as four big-endian bytes. -/
def bytes32 (n : Nat) : List Byte := bytes16 (n / 65536) ++ bytes16 n

/-- A value with its type byte (30_encoding R94). -/
def AmfScalar.encode : AmfScalar → List Byte
  | .number hi lo => 0x00#8 :: (bytes32 hi.toNat ++ bytes32 lo.toNat)
  | .boolean b => [0x01#8, b]
  | .text bs => 0x02#8 :: (bytes16 bs.length ++ bs)

/-- A key/value pair (30_encoding R94). -/
def encodePair (q : List Byte × AmfScalar) : List Byte := bytes16 q.1.length ++ q.1 ++ q.2.encode

/-- A script payload: the name, then an ECMA array of the pairs with its end marker (43_flv R190). -/
def encodeScript (name : List Byte) (pairs : List (List Byte × AmfScalar)) : List Byte :=
  (AmfScalar.text name).encode ++
    (0x08#8 :: (bytes32 pairs.length ++ pairs.flatMap encodePair ++ [0x00#8, 0x00#8, 0x09#8]))

/-- The row a value at IBUF index `i` (of its type byte) is stored as (43_flv R191). -/
def AmfScalar.row (i : Nat) : AmfScalar → MetaRow
  | .number hi lo => ⟨true, 0x00#8, hi, lo⟩
  | .boolean b => ⟨true, 0x01#8, 0#32, b.setWidth 32⟩
  | .text bs => ⟨true, 0x02#8, Word.ofN bs.length, Word.ofN (i + 3)⟩

/-- The table after the pairs that stand from IBUF index `i` on: an exact key writes its row, the last value
wins, any other key writes nothing (43_flv R191). -/
def storedRows (i : Nat) (rows : Vector MetaRow 12) : List (List Byte × AmfScalar) → Vector MetaRow 12
  | [] => rows
  | q :: qs =>
    storedRows (i + (encodePair q).length)
      (match (metaKeys.find? fun e => q.1 == e.2).map Prod.fst with
        | some r => rows.set r.val (q.2.row (i + 2 + q.1.length))
        | none => rows) qs

/-- Every length of the payload fits its field (30_encoding R94). -/
def ScriptFits (name : List Byte) (pairs : List (List Byte × AmfScalar)) : Prop :=
  name.length < 65536 ∧ pairs.length < 4294967296 ∧
    ∀ q ∈ pairs, q.1.length < 65536 ∧ ∀ bs, q.2 = .text bs → bs.length < 65536

end Sys2Proof.Machine
end

