-- ==== Sys2Proof/Certificates/Slice0/Obligations.lean ====
section
/-! DEFINITION. The statements for the provers. Each docstring names the rule of spec/ it formalises. -/

open Sys2Proof Sys2Proof.Machine

/-! ## Encoding and decoding -/

/-- Decode and encode agree on every command, with every value of the ignored bits, and a word that decodes
to a command is that command's word with some ignored bits (30_encoding R80, R81). -/
def Obligations.DecodeInvertsEncodeOnEveryWord : Prop :=
  (∀ (i : Instr) (ignored : BitVec 24), i.wf = true → decode (encodeWith ignored i) = .ok i) ∧
    (∀ (w : Word) (i : Instr), decode w = .ok i → w = encodeWith (w.extractLsb 31 8) i) ∧
    (∀ w w' : Word, w.setWidth 8 = w'.setWidth 8 → decode w = decode w')

/-- Every 8-bit value selects exactly one command or is reserved, and a reserved one is refused by name
(30_encoding R82, R84; R84 is marked derived in the spec). -/
def Obligations.EveryOpcodeIsACommandOrReserved : Prop :=
  ∀ w : Word,
    (opcodeReserved (w.setWidth 8) = true ∧ decode w = .error (.reservedOpcode (w.setWidth 8))) ∨
      (opcodeReserved (w.setWidth 8) = false ∧
        ∃ i : Instr, decode w = .ok i ∧ i.opcode = w.setWidth 8 ∧
          ∀ j : Instr, j.opcode = w.setWidth 8 → j = i)

/-- Words written out bit by bit from 30_encoding R80 and R81. -/
def Obligations.WrittenOutWordsDecode : Prop :=
  decode 0b00000000000000000000000000000001#32 = .ok .nalNext ∧
    decode 0b00000000000000000000000000000010#32 = .ok .adtsNext ∧
    decode 0b00000000000000000000000000000100#32 = .ok .flvNextTag ∧
    decode 0b00000000000000000000000000000101#32 = .ok .rtpParse ∧
    decode 0b11111111111111111111111100011111#32 = .ok .softReset ∧
    decode 0b00000000000000000000000000000000#32 = .error (.reservedOpcode 0#8)

/-- A step at which the engine has its turn, with the command `i` in progress, is exec of `i` (an engine input
at the head of the queue is used up; otherwise the state is the same). When the engine has its turn is the
model's choice (log 2). -/
def Obligations.StepRunsTheDecodedCommand : Prop :=
  ∀ (s : State) (i : Instr), Running s i → EngineTurnNext s →
    step s =
      exec i (if s.inputs.head? = some .engine then { s with inputs := s.inputs.tail } else s)

/-- The line `CMD m` or `CMD m, a` followed by `WAIT` (30_encoding R99) on an idle block: the CMD write (after
the ARG write) is accepted, the engine runs exactly that command, and the wait then ends with STATUS read. The
turn of the engine during a wait is the model's choice (log 2). -/
def Obligations.CommandLineRunsItsCommand : Prop :=
  ∀ (s : State) (i : Instr) (a : Word) (rest : List Input), s.status.busy = false →
    (i.takesOperand = true →
      Sys2Proof.core.run 3 { s with inputs := (HostLine.cmd i (some a)).expand ++ .wait :: rest } =
        exec i
          { s with
            arg := a
            status := s.status.accept i.opcode
            inputs := .wait :: rest
            response := .writeOk }) ∧
      (i.takesOperand = false →
        Sys2Proof.core.run 2 { s with inputs := (HostLine.cmd i none).expand ++ .wait :: rest } =
          exec i
            { s with
              status := s.status.accept i.opcode
              inputs := .wait :: rest
              response := .writeOk }) ∧
      (∀ u t : State, u.inputs = .wait :: rest → exec i u = .next t →
        step t = .next { t with inputs := rest, response := .readData t.status.toWord })

/-! ## The host's accesses -/

/-- CMD (10_state R24): a write while BUSY = 0 is accepted and starts the command its bits 7:0 select; a write
while BUSY = 1 is refused and flagged; a read returns 0. That the acceptance leaves CONSUMED, SKIPPED and the groups,
which the engine clears in a step of its own, is the model's choice (log 2, log 3; 40_cursor R110). -/
def Obligations.CmdWriteStartsTheCommand : Prop :=
  ∀ (s : State) (v : Word),
    (s.status.busy = false →
      ∃ t, hostAccess (.write .word 0x00C#32 v) s = .next t ∧
        t =
          { s with
            response := .writeOk
            status := { s.status with lastOp := v.setWidth 8, done := false, busy := true } } ∧
        (∀ i : Instr, i.opcode = v.setWidth 8 → engineTurn t = exec i t)) ∧
      (s.status.busy = true →
        hostAccess (.write .word 0x00C#32 v) s =
          .next { s with response := .writeOk, status := { s.status with busyWrite := true } }) ∧
      (s.status.busy = false →
        hostAccess (.read .word 0x00C#32) s = .next { s with response := .readData 0#32 })

/-- A reserved opcode (40_cursor R124) is accepted and completes with CMD_ERROR: from the state before the
write to the one after completion only STATUS (BUSY, DONE, CODE, LAST_OP) and the model's answer change. -/
def Obligations.ReservedOpcodeChangesOnlyStatus : Prop :=
  ∀ (s : State) (v : Word), s.status.busy = false → opcodeReserved (v.setWidth 8) = true →
    ∃ t, hostAccess (.write .word 0x00C#32 v) s = .next t ∧ t.status.busy = true ∧
      engineTurn t =
        .next
          { s with
            response := .writeOk
            status :=
              { s.status with
                lastOp := v.setWidth 8
                code := .cmdError
                busy := false
                done := true } }

/-- STATUS (10_state R23): where its fields stand, the numbers of CODE (60_exceptions R230), and what a write does
whatever BUSY is: a 1 clears DONE, OVERFLOW or BUSY_WRITE, a 0 leaves it, every other field keeps its value. -/
def Obligations.StatusWriteClearsOnlyOnes : Prop :=
  (∀ (s : State) (v : Word),
    hostAccess (.write .word 0x008#32 v) s =
      .next
        { s with
          response := .writeOk
          status :=
            { s.status with
              done := s.status.done && !v.getLsbD 1
              overflow := s.status.overflow && !v.getLsbD 2
              busyWrite := s.status.busyWrite && !v.getLsbD 3 } }) ∧
    [ResultCode.ok, .endOfStream, .needMoreData, .noStartCode, .noSyncWord, .truncated,
        .unsupportedTagType, .unsupportedCodec, .malformedHeader, .capacityExceeded,
        .cmdError].map ResultCode.toBits =
      [0#4, 1#4, 2#4, 3#4, 4#4, 5#4, 6#4, 7#4, 8#4, 9#4, 10#4] ∧
    ∀ st : Status,
      st.toWord.getLsbD 0 = st.busy ∧ st.toWord.getLsbD 1 = st.done ∧
        st.toWord.getLsbD 2 = st.overflow ∧ st.toWord.getLsbD 3 = st.busyWrite ∧
        st.toWord.extractLsb 7 4 = 0#4 ∧ st.toWord.extractLsb 11 8 = st.code.toBits ∧
        st.toWord.extractLsb 15 12 = 0#4 ∧ st.toWord.extractLsb 23 16 = st.lastOp ∧
        st.toWord.extractLsb 31 24 = 0#8

/-- DATA_IN (10_state R28): a write while BUSY = 1 is dropped and flagged; at LEN = BUF_CAP the byte is dropped
and OVERFLOW set; otherwise bits 7:0 become IBUF[LEN] and LEN grows by 1. A read returns 0. No other
event makes LEN grow. -/
def Obligations.DataInIsTheOnlyAppend : Prop :=
  (∀ (s : State) (v : Word), s.Inv →
    (s.status.busy = true →
      hostAccess (.write .word 0x01C#32 v) s =
        .next { s with response := .writeOk, status := { s.status with busyWrite := true } }) ∧
      (s.status.busy = false → s.len = s.cap →
        hostAccess (.write .word 0x01C#32 v) s =
          .next { s with response := .writeOk, status := { s.status with overflow := true } }) ∧
      (s.status.busy = false → s.len ≠ s.cap →
        ∃ t, hostAccess (.write .word 0x01C#32 v) s = .next t ∧
          t = { s with response := .writeOk, ibuf := t.ibuf, len := t.len } ∧
          t.len.toNat = s.len.toNat + 1 ∧
          ∀ k, Memory.read t.ibuf k =
            if k = s.len.toNat then v.setWidth 8 else Memory.read s.ibuf k) ∧
      (s.status.busy = false →
        hostAccess (.read .word 0x01C#32) s = .next { s with response := .readData 0#32 })) ∧
    ∀ s t : State, s.Inv → step s = .next t → s.len.toNat < t.len.toNat →
      s.status.busy = false ∧ s.len ≠ s.cap ∧
        ∃ v rest, s.inputs = .access (.write .word 0x01C#32 v) :: rest

/-- Writes while BUSY = 1 (70_reset_and_hazards R261): STATUS takes its write-1-to-clear bits; CTRL, ARG, CMD,
DATA_IN and the FLV previous-tag state are refused and flagged; a read-only register ignores the write
whatever BUSY is, and that it then sets no BUSY_WRITE is the model's reading of R261 with U14 against 10_state R42 (f)
with U4 (log 8); the window answers a bus error whatever BUSY is. -/
def Obligations.WritesWhileBusyAreRefused : Prop :=
  ∀ (s : State) (v : Word),
    (s.status.busy = true →
      hostAccess (.write .word (Word.ofN Reg.status.offset) v) s =
        .next
          { s with
            response := .writeOk
            status :=
              { s.status with
                done := s.status.done && !v.getLsbD 1
                overflow := s.status.overflow && !v.getLsbD 2
                busyWrite := s.status.busyWrite && !v.getLsbD 3 } }) ∧
      (∀ r ∈ [Reg.ctrl, .arg, .cmd, .dataIn, .flvPrevValid, .flvPrevDs], s.status.busy = true →
        hostAccess (.write .word (Word.ofN r.offset) v) s =
          .next { s with response := .writeOk, status := { s.status with busyWrite := true } }) ∧
      (∀ r ∉ [Reg.status, .ctrl, .arg, .cmd, .dataIn, .flvPrevValid, .flvPrevDs],
        hostAccess (.write .word (Word.ofN r.offset) v) s = .next { s with response := .writeOk }) ∧
      (∀ off : Word, off.toNat % 4 = 0 → InWindow s.cap.toNat off.toNat →
        hostAccess (.write .word off v) s = .fault (.busError .windowWrite))

/-- Reads while BUSY = 1 (70_reset_and_hazards R262): STATUS reads its current value (BUSY = 1, DONE = 0), ID and
CAP their constants; every other register and the window answer some value (the model's free value, log 6); nothing of the block changes. That
CMD, DATA_IN and the reserved META words are among those others is the model's reading of R262 against 10_state R42 (b)
and (c) (log 21). -/
def Obligations.ReadsWhileBusyAreUnspecified : Prop :=
  ∀ s : State, s.Inv → s.status.busy = true →
    (∃ v, hostAccess (.read .word (Word.ofN Reg.status.offset)) s =
        .next { s with response := .readData v } ∧
      v = s.status.toWord ∧ v.getLsbD 0 = true ∧ v.getLsbD 1 = false) ∧
      hostAccess (.read .word (Word.ofN Reg.id.offset)) s =
        .next { s with response := .readData 0x44534231#32 } ∧
      hostAccess (.read .word (Word.ofN Reg.cap.offset)) s =
        .next { s with response := .readData s.cap } ∧
      (∀ r ∉ [Reg.status, .id, .cap],
        ∃ v, hostAccess (.read .word (Word.ofN r.offset)) s =
          .next { s with response := .readData v, freeCount := s.freeCount + 1 }) ∧
      (∀ off : Word, off.toNat % 4 = 0 → InWindow s.cap.toNat off.toNat →
        ∃ v, hostAccess (.read .word off) s =
          .next { s with response := .readData v, freeCount := s.freeCount + 1 })

/-- While BUSY = 0 a read of a register answers the register and changes nothing else (10_state R42 (d)); at any
time a read changes only the model's answer and counter. -/
def Obligations.RegisterReadsHaveNoSideEffect : Prop :=
  (∀ (s : State) (r : Reg), s.status.busy = false →
    hostAccess (.read .word (Word.ofN r.offset)) s =
      .next { s with response := .readData (readReg s r) }) ∧
    ∀ (s t : State) (w : AccessWidth) (off : Word), hostAccess (.read w off) s = .next t →
      t = { s with response := t.response, freeCount := t.freeCount }

/-- Register writes while BUSY = 0 (10_state R22, R25, R35): CTRL keeps bits 1..0, ARG the whole word,
FLV_PREV_VALID bit 0, FLV_PREV_DS bits 23:0, and reserved bits then read 0. -/
def Obligations.WritableRegistersKeepTheirDefinedBits : Prop :=
  ∀ (s : State) (v : Word), s.status.busy = false →
    (∃ t, hostAccess (.write .word 0x004#32 v) s = .next t ∧
      t = { s with response := .writeOk, ctrl := ⟨v.getLsbD 0, v.getLsbD 1⟩ } ∧
      readReg t .ctrl = v &&& 0x3#32) ∧
      hostAccess (.write .word 0x010#32 v) s = .next { s with response := .writeOk, arg := v } ∧
      (∃ t, hostAccess (.write .word 0x0D8#32 v) s = .next t ∧
        t = { s with response := .writeOk, flvPrev := ⟨v.getLsbD 0, s.flvPrev.ds⟩ } ∧
        readReg t .flvPrevValid = v &&& 0x1#32) ∧
      (∃ t, hostAccess (.write .word 0x0DC#32 v) s = .next t ∧
        t = { s with response := .writeOk, flvPrev := ⟨s.flvPrev.valid, v.setWidth 24⟩ } ∧
        readReg t .flvPrevDs = v &&& 0x00FFFFFF#32)

/-- The window (10_state R41): a read at WIN_BASE + 4 i, i < BUF_CAP, answers the byte zero-extended when
i < LEN and 0 otherwise; a write is a bus error; during BUSY a read answers some value. -/
def Obligations.WindowReadsTheValidBytes : Prop :=
  ∀ (s : State) (i : Nat), s.Inv → i < s.cap.toNat →
    (s.status.busy = false →
      hostAccess (.read .word (Word.ofN (0x00100000 + 4 * i))) s =
        .next
          { s with
            response :=
              .readData (if i < s.len.toNat then (Memory.read s.ibuf i).setWidth 32 else 0#32) }) ∧
      (∀ v, hostAccess (.write .word (Word.ofN (0x00100000 + 4 * i)) v) s =
        .fault (.busError .windowWrite)) ∧
      (s.status.busy = true →
        ∃ v, hostAccess (.read .word (Word.ofN (0x00100000 + 4 * i))) s =
          .next { s with response := .readData v, freeCount := s.freeCount + 1 })

/-- Bus errors (20_memory R65): an access gets one exactly when it is narrow, misaligned, at an unmapped offset,
or a write to the window. A fault carries no state: the block's state is unchanged. A write to a read-only
register is none: it is ignored, and that it sets no BUSY_WRITE while BUSY = 1 is the model's reading (log 8). -/
def Obligations.BusErrorsAreExactlyTheIllegalAccesses : Prop :=
  ∀ (a : BusAccess) (s : State),
    (AccessLegal s.cap.toNat a → ∃ t, hostAccess a s = .next t) ∧
      (¬ AccessLegal s.cap.toNat a → ∃ why, hostAccess a s = .fault (.busError why)) ∧
      ∀ r ∉ [Reg.status, .ctrl, .arg, .cmd, .dataIn, .flvPrevValid, .flvPrevDs], ∀ v : Word,
        hostAccess (.write .word (Word.ofN r.offset) v) s = .next { s with response := .writeOk }

/-- No step is refused, and a step faults only when the host's next access is illegal: no stream content, register
value or command stops the machine (60_exceptions R238, R239). -/
def Obligations.OnlyIllegalAccessesStopTheMachine : Prop :=
  ∀ s : State,
    (∀ r, step s ≠ .refused r) ∧
      ∀ f, step s = .fault f →
        ∃ a rest, s.inputs = .access a :: rest ∧ ¬ AccessLegal s.cap.toNat a

/-- A host whose accesses are all legal never stops the machine, however many steps it runs
(60_exceptions R238, R239; 70_reset_and_hazards R271). -/
def Obligations.SafeHostsRunForever : Prop :=
  ∀ (n : Nat) (s : State), HostSafe s → ∃ t, Sys2Proof.core.run n s = .next t

/-- The register map is one-to-one, word-aligned, and stops below the window (20_memory R61). -/
def Obligations.RegisterMapIsOneToOne : Prop :=
  (∀ r : Reg, regAt r.offset = some r ∧ r.offset % 4 = 0 ∧ r.offset ≤ 0x260) ∧
    ∀ (off : Nat) (r : Reg), regAt off = some r → r.offset = off

/-- The register map written out (10_state R21 to R39, 20_memory R61): each register stands at its offset, an idle
read there answers the word of its field, and the map names every register. -/
def Obligations.EachOffsetReadsItsField : Prop :=
  ∀ s : State,
    (∀ e ∈ registerMap s,
      e.2.1.offset = e.1 ∧
        (s.status.busy = false →
          hostAccess (.read .word (Word.ofN e.1)) s =
            .next { s with response := .readData e.2.2 })) ∧
      ∀ r : Reg, ∃ off w, (off, r, w) ∈ registerMap s

/-- Where the fields of CTRL and of the composed result registers stand (10_state R22, R29 to R32, R34, R36 to R39), and
the numbers of KIND (43_flv R182). -/
def Obligations.ResultWordsHoldTheirFields : Prop :=
  (∀ c : Ctrl, c.toWord.getLsbD 0 = c.eos ∧ c.toWord.getLsbD 1 = c.ie ∧
      c.toWord.extractLsb 31 2 = 0#30) ∧
    (∀ g : GFlvh, g.hdrWord.extractLsb 7 0 = g.version ∧ g.hdrWord.extractLsb 15 8 = g.flags ∧
      g.hdrWord.extractLsb 31 16 = 0#16) ∧
    (∀ r : MetaRow, r.infoWord.getLsbD 0 = r.present ∧ r.infoWord.extractLsb 7 1 = 0#7 ∧
      r.infoWord.extractLsb 15 8 = r.amfType ∧ r.infoWord.extractLsb 31 16 = 0#16) ∧
    [TagKind.audio, .video, .script, .unknown].map TagKind.toBits = [0#2, 1#2, 2#2, 3#2] ∧
    (∀ g : GNal, g.infoWord.extractLsb 2 0 = g.scLen ∧ g.infoWord.getLsbD 3 = g.hdrValid ∧
      g.infoWord.getLsbD 4 = g.forbidden ∧ g.infoWord.extractLsb 6 5 = g.refIdc ∧
      g.infoWord.getLsbD 7 = false ∧ g.infoWord.extractLsb 12 8 = g.unitType ∧
      g.infoWord.extractLsb 31 13 = 0#19) ∧
    (∀ g : GAdts, g.hdrWord.getLsbD 0 = g.version ∧ g.hdrWord.extractLsb 2 1 = g.layer ∧
      g.hdrWord.getLsbD 3 = g.protAbsent ∧ g.hdrWord.extractLsb 5 4 = g.profile ∧
      g.hdrWord.extractLsb 9 6 = g.sfIndex ∧ g.hdrWord.getLsbD 10 = g.privateBit ∧
      g.hdrWord.extractLsb 13 11 = g.chanCfg ∧ g.hdrWord.getLsbD 14 = g.original ∧
      g.hdrWord.getLsbD 15 = g.home ∧ g.hdrWord.getLsbD 16 = g.copyrightId ∧
      g.hdrWord.getLsbD 17 = g.copyrightStart ∧ g.hdrWord.extractLsb 19 18 = g.numFramesM1 ∧
      g.hdrWord.extractLsb 31 20 = 0#12 ∧
      g.lenWord.extractLsb 12 0 = g.frameLength ∧ g.lenWord.extractLsb 15 13 = 0#3 ∧
      g.lenWord.extractLsb 26 16 = g.bufferFullness ∧ g.lenWord.getLsbD 27 = false ∧
      g.lenWord.extractLsb 31 28 = g.hdrLen) ∧
    (∀ g : GFlvt, g.tagWord.extractLsb 7 0 = g.tagType ∧ g.tagWord.extractLsb 9 8 = g.kind.toBits ∧
      g.tagWord.extractLsb 11 10 = 0#2 ∧ g.tagWord.getLsbD 12 = g.ptsChecked ∧
      g.tagWord.getLsbD 13 = g.ptsMismatch ∧ g.tagWord.extractLsb 15 14 = 0#2 ∧
      g.tagWord.extractLsb 23 16 = g.reservedHi ∧ g.tagWord.extractLsb 31 24 = 0#8) ∧
    (∀ g : GAmf, g.statusWord.getLsbD 0 = g.nameIsOnMetaData ∧
      g.statusWord.getLsbD 1 = g.arrayPresent ∧ g.statusWord.getLsbD 2 = g.endSeen ∧
      g.statusWord.getLsbD 3 = g.partialDecode ∧ g.statusWord.getLsbD 4 = g.decoded ∧
      g.statusWord.extractLsb 7 5 = 0#3 ∧ g.statusWord.extractLsb 15 8 = g.stopType ∧
      g.statusWord.extractLsb 31 16 = 0#16) ∧
    (∀ g : GRtp, g.hdrWord.extractLsb 1 0 = g.version ∧ g.hdrWord.getLsbD 2 = g.padding ∧
      g.hdrWord.getLsbD 3 = g.extension ∧ g.hdrWord.extractLsb 7 4 = g.csrcCount ∧
      g.hdrWord.getLsbD 8 = g.marker ∧ g.hdrWord.extractLsb 15 9 = 0#7 ∧
      g.hdrWord.extractLsb 22 16 = g.payloadType ∧ g.hdrWord.extractLsb 31 23 = 0#9) ∧
    (∀ g : GTs, g.hdrWord.extractLsb 7 0 = g.syncByte ∧ g.hdrWord.getLsbD 8 = g.transportError ∧
      g.hdrWord.getLsbD 9 = g.payloadStart ∧ g.hdrWord.getLsbD 10 = g.priority ∧
      g.hdrWord.getLsbD 11 = false ∧ g.hdrWord.extractLsb 13 12 = g.scrambling ∧
      g.hdrWord.extractLsb 15 14 = g.afc ∧ g.hdrWord.extractLsb 19 16 = g.cc ∧
      g.hdrWord.extractLsb 31 20 = 0#12) ∧
    (∀ t : TsIter, t.word.getLsbD 0 = t.active ∧ t.word.extractLsb 15 1 = 0#15 ∧
      t.word.extractLsb 31 16 = t.nextIndex)

/-- The interrupt output (60_exceptions R236): CTRL.IE and STATUS.DONE; completion with IE = 1 raises it; it falls
at acceptance of the next command, at a write of 1 to STATUS.DONE, at a write of IE = 0, and at reset. That the
formula holds in every state is the model's reading (log 13). -/
def Obligations.InterruptFollowsDone : Prop :=
  ∀ s : State, s.irq = (s.ctrl.ie && s.status.done) ∧
    (∀ c, (complete c s).irq = s.ctrl.ie) ∧
    (∀ w, (acceptCommand w s).irq = false) ∧
    (∀ (v : Word) (t : State), v.getLsbD 1 = true →
      hostAccess (.write .word 0x008#32 v) s = .next t → t.irq = false) ∧
    (∀ (v : Word) (t : State), s.status.busy = false → v.getLsbD 1 = false →
      hostAccess (.write .word 0x004#32 v) s = .next t → t.irq = false) ∧
    (resetBlock s).irq = false

/-! ## Reset -/

/-- After reset (10_state R45): ID = 0x4453_4231, CAP = BUF_CAP, every other register reads 0, the interrupt
output is 0, and no entry of IBUF can be seen. -/
def Obligations.ResetLeavesTheResetValues : Prop :=
  ∀ cap : Word,
    (∀ r : Reg,
      readReg (State.resetWith cap) r =
        if r = .id then 0x44534231#32 else if r = .cap then cap else 0#32) ∧
      (State.resetWith cap).irq = false ∧ ∀ i, readWindow (State.resetWith cap) i = 0#32

/-- The reset input (70_reset_and_hazards R250), also while a command is in progress: every register at its reset
value, STATUS = 0, IRQ = 0, LEN = 0, nothing of the abandoned command left. CAP and the model's own fields stay. A
SOFT_RESET differs in DONE and LAST_OP alone, and its CMD write is refused while BUSY = 1. That the reset falls
between two steps is the model's reading (log 16), and so is that SOFT_RESET clears the sticky flags (log 11) and ARG
(log 19); that reset is one event, not held over accesses, is its choice (log 20). -/
def Obligations.ResetInputAbandonsTheCommand : Prop :=
  ∀ (s : State) (rest : List Input), s.inputs = .resetPin :: rest →
    (∃ t, step s = .next t ∧
      t =
        { State.resetWith s.cap with
          inputs := rest
          response := s.response
          freeCount := s.freeCount } ∧
      readReg t .status = 0#32 ∧ t.irq = false ∧ t.len = 0#32) ∧
      exec .softReset { s with inputs := rest } =
        .next
          { State.resetWith s.cap with
            inputs := rest
            response := s.response
            freeCount := s.freeCount
            status := { Status.zero with done := true, lastOp := 0x1F#8 } } ∧
      (s.status.busy = true →
        hostAccess (.write .word 0x00C#32 0x0000001F#32) s =
          .next { s with response := .writeOk, status := { s.status with busyWrite := true } })

/-! ## The cursor commands -/

/-- SEEK (40_cursor R120): POS <- ARG when ARG <= LEN, else CMD_ERROR with POS unchanged; CONSUMED and SKIPPED are 0
either way; nothing else but STATUS changes. -/
def Obligations.SeekSetsThePosition : Prop :=
  Instr.opcode .seek = 0x10#8 ∧ ∀ s : State,
    (s.arg.toNat ≤ s.len.toNat →
      exec .seek s =
        .next
          { s with
            pos := s.arg
            consumed := 0#32
            skipped := 0#32
            status := s.status.raise .ok }) ∧
      (s.len.toNat < s.arg.toNat →
        exec .seek s =
          .next { s with consumed := 0#32, skipped := 0#32, status := s.status.raise .cmdError })

/-- ADVANCE (40_cursor R121): POS moves forward by ARG bytes and CONSUMED is ARG when ARG <= avail, else CMD_ERROR
with POS unchanged; nothing else but SKIPPED (0) and STATUS changes. -/
def Obligations.AdvanceConsumesBytes : Prop :=
  Instr.opcode .advance = 0x11#8 ∧ ∀ s : State, s.Inv →
    (s.arg.toNat ≤ s.len.toNat - s.pos.toNat →
      exec .advance s =
        .next
          { s with
            pos := s.pos + s.arg
            consumed := s.arg
            skipped := 0#32
            status := s.status.raise .ok }) ∧
      (s.len.toNat - s.pos.toNat < s.arg.toNat →
        exec .advance s =
          .next { s with consumed := 0#32, skipped := 0#32, status := s.status.raise .cmdError })

/-- COMPACT (40_cursor R122): IBUF[k] becomes IBUF[p0 + k] for k < L - p0, LEN <- L - p0, POS <- 0, the TS iterator
is cancelled, CONSUMED is 0, the code is OK; nothing else changes, the FLV previous-tag state and every
result group among it. -/
def Obligations.CompactMovesTheUnconsumedBytes : Prop :=
  Instr.opcode .compact = 0x12#8 ∧ ∀ s : State, s.Inv →
    ∃ t, exec .compact s = .next t ∧
      t =
        { s with
          ibuf := t.ibuf
          len := s.len - s.pos
          pos := 0#32
          consumed := 0#32
          skipped := 0#32
          tsIter := ⟨false, 0#16, 0#32, 0#32⟩
          status := s.status.raise .ok } ∧
      (∀ k, k < s.len.toNat - s.pos.toNat →
        Memory.read t.ibuf k = Memory.read s.ibuf (s.pos.toNat + k)) ∧
      (s.pos = 0#32 → ∀ k, Memory.read t.ibuf k = Memory.read s.ibuf k)

/-- SOFT_RESET (40_cursor R123): every register and field at its reset value, then LAST_OP = 0x1F and OK; STATUS reads
0x001F_0002 and no interrupt is raised. CAP and the model's own fields stay. That OVERFLOW and BUSY_WRITE are
cleared, against 10_state R23's "No command clears them", is the model's reading (log 11), and so is that ARG is
cleared, against 30_encoding R83's "The block never writes ARG" (log 19). -/
def Obligations.SoftResetReturnsTheResetValues : Prop :=
  Instr.opcode .softReset = 0x1F#8 ∧ ∀ s : State,
    ∃ t, exec .softReset s = .next t ∧
      t =
        { State.resetWith s.cap with
          status := ⟨false, true, false, false, .ok, 0x1F#8⟩
          inputs := s.inputs
          response := s.response
          freeCount := s.freeCount } ∧
      readReg t .status = 0x001F0002#32 ∧ t.irq = false

/-! ## NAL_NEXT -/

/-- SC(i) (30_encoding R85): what the search tests is the 4-byte pattern, else the 3-byte one; at one index the two
exclude each other; the answer is decided by a match or by i + 3 < L; and with only `00 00 00` at the end of
the bytes, a byte 01 still to come makes a 4-byte match. -/
def Obligations.StartCodeMatchesItsPatterns : Prop :=
  (∀ (m : Memory) (len i c : Nat), startCode m len i = some c ↔ StartCodeAt m len i c) ∧
    (∀ (m : Memory) (len i c d : Nat), StartCodeAt m len i c → StartCodeAt m len i d → c = d) ∧
    (∀ (m : Memory) (len len' i : Nat), len ≤ len' → (startCode m len i ≠ none ∨ i + 3 < len) →
      startCode m len' i = startCode m len i) ∧
    ∀ (m : Memory) (len len' i : Nat), i + 2 < len → len ≤ i + 3 → i + 3 < len' →
      Memory.read m i = 0#8 → Memory.read m (i + 1) = 0#8 → Memory.read m (i + 2) = 0#8 →
      Memory.read m (i + 3) = 1#8 → startCode m len i = none ∧ startCode m len' i = some 4

/-- NAL_NEXT (41_nal R130). A unit: the first start code at or after p0 and its end, the next start code or, at end
of stream, L. No start code: END_OF_STREAM or NO_START_CODE at end of stream, else a shortfall of avail + 1.
A start code but no end, and not end of stream: the same shortfall. The positions of FORBIDDEN and REF_IDC are
the spec's own choice (93_implementation_defined K1, log 10). -/
def Obligations.NalNextFindsTheNextUnit : Prop :=
  Instr.opcode .nalNext = 0x01#8 ∧ ∀ s : State, s.Inv →
    (∀ i c e : Nat, FirstStartCodeAt s.ibuf s.len.toNat s.pos.toNat i c →
      ((∃ d, FirstStartCodeAt s.ibuf s.len.toNat (i + c) e d) ∨
        (NoStartCodeFrom s.ibuf s.len.toNat (i + c) ∧ s.ctrl.eos = true ∧ e = s.len.toNat)) →
      exec .nalNext s =
        .next
          { s with
            status := s.status.raise .ok
            pos := Word.ofN e
            consumed := Word.ofN (e - s.pos.toNat)
            skipped := Word.ofN (i - s.pos.toNat)
            nal :=
              { scLen := BitVec.ofNat 3 c
                hdrValid := decide (i + c < e)
                forbidden := decide (i + c < e) && (Memory.read s.ibuf (i + c)).getLsbD 7
                refIdc := if i + c < e then (Memory.read s.ibuf (i + c)).extractLsb 6 5 else 0#2
                unitType := if i + c < e then (Memory.read s.ibuf (i + c)).extractLsb 4 0 else 0#5
                scOff := Word.ofN i
                payOff := Word.ofN (i + c)
                payLen := Word.ofN (e - (i + c)) } }) ∧
      (NoStartCodeFrom s.ibuf s.len.toNat s.pos.toNat →
        exec .nalNext s =
          .next
            { s with
              consumed := 0#32
              skipped := 0#32
              nal := GNal.zero
              status :=
                s.status.raise
                  (if s.ctrl.eos then (if s.pos = s.len then .endOfStream else .noStartCode)
                   else if s.cap.toNat < s.len.toNat - s.pos.toNat + 1 then .capacityExceeded
                   else .needMoreData) }) ∧
      (∀ i c : Nat, FirstStartCodeAt s.ibuf s.len.toNat s.pos.toNat i c →
        NoStartCodeFrom s.ibuf s.len.toNat (i + c) → s.ctrl.eos = false →
        exec .nalNext s =
          .next
            { s with
              consumed := 0#32
              skipped := 0#32
              nal := GNal.zero
              status :=
                s.status.raise
                  (if s.cap.toNat < s.len.toNat - s.pos.toNat + 1 then .capacityExceeded
                   else .needMoreData) })

/-- The reconstruction property (41_nal R139, marked derived in the spec): from a start code at the cursor, at end of
stream, NAL_NEXT issued again and again reports units whose start codes and payloads, concatenated, are exactly the
bytes from the cursor to LEN, whose CONSUMED add up to their number, and then END_OF_STREAM. -/
def Obligations.NalSessionReconstructsTheStream : Prop :=
  ∀ s : State, s.Inv → s.ctrl.eos = true → (∃ c, StartCodeAt s.ibuf s.len.toNat s.pos.toNat c) →
    ∃ (ts : List State) (u : State), OkSession .nalNext s ts u ∧ u.pos = s.len ∧
      (ts.map fun t => t.consumed.toNat).sum = s.len.toNat - s.pos.toNat ∧
      (ts.flatMap fun t =>
          bytesAt s.ibuf t.nal.scOff.toNat t.nal.scLen.toNat ++
            bytesAt s.ibuf t.nal.payOff.toNat t.nal.payLen.toNat) =
        bytesAt s.ibuf s.pos.toNat (s.len.toNat - s.pos.toNat) ∧
      ∃ v, issue .nalNext u = .next v ∧ v.status.code = .endOfStream

/-- Bytes that arrive later do not change a unit already complete (41_nal R136 (d), marked derived in the spec): with
EOS = 0, if NAL_NEXT reports a unit, it reports the same unit after one more byte is appended. -/
def Obligations.AppendKeepsTheUnitFound : Prop :=
  ∀ (s t : State) (b : Byte), s.Inv → s.ctrl.eos = false → s.len ≠ s.cap →
    exec .nalNext s = .next t → t.status.code = .ok →
    exec .nalNext (appendByte b s) =
      .next { t with ibuf := (appendByte b s).ibuf, len := (appendByte b s).len }

/-! ## ADTS_NEXT -/

/-- ADTS_NEXT (42_adts R150), case by case in the order of its pseudocode. -/
def Obligations.AdtsNextFindsTheNextFrame : Prop :=
  Instr.opcode .adtsNext = 0x02#8 ∧ ∀ s : State, s.Inv →
    (s.pos = s.len →
      exec .adtsNext s =
        .next
          { s with
            consumed := 0#32
            skipped := 0#32
            adts := GAdts.zero
            status := s.status.raise (if s.ctrl.eos then .endOfStream else .needMoreData) }) ∧
      (s.pos ≠ s.len → (∀ i, s.pos.toNat ≤ i → ¬ SyncWordAt s.ibuf s.len.toNat i) →
        exec .adtsNext s =
          .next
            { s with
              consumed := 0#32
              skipped := 0#32
              adts := GAdts.zero
              status := s.status.raise .noSyncWord }) ∧
      ∀ i so : Nat, FirstSyncWordAt s.ibuf s.len.toNat s.pos.toNat i → so = i - s.pos.toNat →
        (s.len.toNat - i < 7 →
          exec .adtsNext s =
            .next
              { s with
                consumed := 0#32
                skipped := Word.ofN so
                adts := GAdts.zero
                status := s.status.raise (shortfallCode s.latch (so + 7)) }) ∧
          (7 ≤ s.len.toNat - i →
            ∀ (a1 a2 a3 a4 a5 a6 : Byte) (g : GAdts) (fl hl : Nat),
              a1 = Memory.read s.ibuf (i + 1) → a2 = Memory.read s.ibuf (i + 2) →
              a3 = Memory.read s.ibuf (i + 3) → a4 = Memory.read s.ibuf (i + 4) →
              a5 = Memory.read s.ibuf (i + 5) → a6 = Memory.read s.ibuf (i + 6) →
              g =
                { version := a1.getLsbD 3
                  layer := a1.extractLsb 2 1
                  protAbsent := a1.getLsbD 0
                  profile := a2.extractLsb 7 6
                  sfIndex := a2.extractLsb 5 2
                  privateBit := a2.getLsbD 1
                  chanCfg := a2.extractLsb 0 0 ++ a3.extractLsb 7 6
                  original := a3.getLsbD 5
                  home := a3.getLsbD 4
                  copyrightId := a3.getLsbD 3
                  copyrightStart := a3.getLsbD 2
                  numFramesM1 := a6.extractLsb 1 0
                  frameLength := a3.extractLsb 1 0 ++ a4 ++ a5.extractLsb 7 5
                  bufferFullness := a5.extractLsb 4 0 ++ a6.extractLsb 7 2
                  hdrLen := if a1.getLsbD 0 then 7#4 else 9#4
                  frameOff := Word.ofN i
                  payOff := 0#32
                  payLen := 0#32
                  crc := 0#16 } →
              fl = g.frameLength.toNat → hl = (if a1.getLsbD 0 then 7 else 9) →
              (fl < hl →
                exec .adtsNext s =
                  .next
                    { s with
                      consumed := 0#32
                      skipped := Word.ofN so
                      adts := g
                      status := s.status.raise .malformedHeader }) ∧
                (hl ≤ fl → s.len.toNat - i < fl →
                  exec .adtsNext s =
                    .next
                      { s with
                        consumed := 0#32
                        skipped := Word.ofN so
                        adts := g
                        status := s.status.raise (shortfallCode s.latch (so + fl)) }) ∧
                (hl ≤ fl → fl ≤ s.len.toNat - i →
                  exec .adtsNext s =
                    .next
                      { s with
                        pos := Word.ofN (i + fl)
                        consumed := Word.ofN (so + fl)
                        skipped := Word.ofN so
                        adts :=
                          { g with
                            crc :=
                              if hl = 9 then
                                Memory.read s.ibuf (i + 7) ++ Memory.read s.ibuf (i + 8)
                              else 0#16
                            payOff := Word.ofN (i + hl)
                            payLen := Word.ofN (fl - hl) }
                        status := s.status.raise .ok }))

/-- The length property (42_adts R157, marked derived in the spec): over a session of ADTS_NEXT, the skipped bytes
and the frame lengths, with what is left at its end, add up to the bytes that were there at its start. -/
def Obligations.AdtsSessionAccountsForEveryByte : Prop :=
  ∀ (s u : State) (ts : List State), s.Inv → OkSession .adtsNext s ts u →
    (ts.map fun t => t.skipped.toNat + t.adts.frameLength.toNat).sum +
        (u.len.toNat - u.pos.toNat) =
      s.len.toNat - s.pos.toNat

/-! ## FLV -/

/-- FLV_HEADER (43_flv R170), case by case in the order of its pseudocode. -/
def Obligations.FlvHeaderChecksAndSeeks : Prop :=
  Instr.opcode .flvHeader = 0x03#8 ∧ ∀ s : State, s.Inv →
    (s.len.toNat - s.pos.toNat < 9 →
      exec .flvHeader s =
        .next
          { s with
            consumed := 0#32
            skipped := 0#32
            flvh := GFlvh.zero
            status := s.status.raise (shortfallCode s.latch 9) }) ∧
      (9 ≤ s.len.toNat - s.pos.toNat →
        bytesAt s.ibuf s.pos.toNat 3 ≠ [0x46#8, 0x4C#8, 0x56#8] →
        exec .flvHeader s =
          .next
            { s with
              consumed := 0#32
              skipped := 0#32
              flvh := GFlvh.zero
              status := s.status.raise .malformedHeader }) ∧
      (9 ≤ s.len.toNat - s.pos.toNat →
        bytesAt s.ibuf s.pos.toNat 3 = [0x46#8, 0x4C#8, 0x56#8] →
        ∀ (d : Nat) (g : GFlvh), d = memRead s.ibuf (s.pos.toNat + 5) 4 →
          g =
            ⟨Memory.read s.ibuf (s.pos.toNat + 3), Memory.read s.ibuf (s.pos.toNat + 4), Word.ofN d⟩ →
          (s.len.toNat - s.pos.toNat < d →
            exec .flvHeader s =
              .next
                { s with
                  consumed := 0#32
                  skipped := 0#32
                  flvh := g
                  flvPrev := ⟨false, 0#24⟩
                  status := s.status.raise (shortfallCode s.latch d) }) ∧
            (d ≤ s.len.toNat - s.pos.toNat →
              exec .flvHeader s =
                .next
                  { s with
                    pos := Word.ofN (s.pos.toNat + d)
                    consumed := Word.ofN d
                    skipped := 0#32
                    flvh := g
                    flvPrev := ⟨false, 0#24⟩
                    status := s.status.raise .ok }))

/-- FLV_NEXT_TAG (43_flv R180), case by case in the order of its pseudocode. The script decoder is amfDecode, about
which the statements of the next section speak. The tag_type codes are the spec's own choice
(93_implementation_defined K2, log 10). -/
def Obligations.FlvNextTagConsumesWholeTags : Prop :=
  Instr.opcode .flvNextTag = 0x04#8 ∧ ∀ s : State, s.Inv →
    (s.len.toNat - s.pos.toNat < 15 →
      exec .flvNextTag s =
        .next
          { s with
            consumed := 0#32
            skipped := 0#32
            flvt := GFlvt.zero
            amf := GAmf.zero
            metaRows := metaRowsZero
            status := s.status.raise (if s.ctrl.eos then .endOfStream else .needMoreData) }) ∧
      (15 ≤ s.len.toNat - s.pos.toNat →
        ∀ (t ds : Nat) (tt : Byte) (h : GFlvt), t = s.pos.toNat + 4 → tt = Memory.read s.ibuf t →
          ds = memRead s.ibuf (t + 1) 3 →
          h =
            { GFlvt.zero with
              tagType := tt
              kind :=
                if tt = 8#8 then .audio else if tt = 9#8 then .video
                else if tt = 18#8 then .script else .unknown
              reservedHi := Memory.read s.ibuf (t + 7)
              prevSize := Word.ofN (memRead s.ibuf s.pos.toNat 4)
              dataSize := BitVec.ofNat 24 ds
              timestamp := BitVec.ofNat 24 (memRead s.ibuf (t + 4) 3)
              streamId := BitVec.ofNat 24 (memRead s.ibuf (t + 8) 3)
              tagOff := Word.ofN t
              payOff := Word.ofN (t + 11)
              emitPts := Word.ofN (11 + ds) } →
          (s.len.toNat - s.pos.toNat < 15 + ds →
            exec .flvNextTag s =
              .next
                { s with
                  consumed := 0#32
                  skipped := 0#32
                  flvt := h
                  amf := GAmf.zero
                  metaRows := metaRowsZero
                  status := s.status.raise (shortfallCode s.latch (15 + ds)) }) ∧
            (15 + ds ≤ s.len.toNat - s.pos.toNat →
              ∀ (w : GFlvt) (c : State),
                w =
                  { h with
                    ptsChecked := s.flvPrev.valid
                    ptsMismatch :=
                      s.flvPrev.valid &&
                        decide (memRead s.ibuf s.pos.toNat 4 ≠ 11 + s.flvPrev.ds.toNat) } →
                c =
                  { s with
                    pos := Word.ofN (s.pos.toNat + 15 + ds)
                    consumed := Word.ofN (15 + ds)
                    skipped := 0#32
                    flvt := w
                    flvPrev := ⟨true, BitVec.ofNat 24 ds⟩
                    amf := GAmf.zero
                    metaRows := metaRowsZero } →
                (tt = 8#8 → ds ≠ 0 →
                  exec .flvNextTag s =
                    .next
                      { c with
                        flvt :=
                          { w with
                            audio := Memory.read s.ibuf (t + 11)
                            esOff := Word.ofN (t + 12)
                            esLen := Word.ofN (ds - 1) }
                        status := s.status.raise .ok }) ∧
                  (tt = 9#8 → ds ≠ 0 →
                    exec .flvNextTag s =
                      .next
                        { c with
                          flvt :=
                            { w with
                              video := Memory.read s.ibuf (t + 11)
                              esOff := Word.ofN (t + 12)
                              esLen := Word.ofN (ds - 1) }
                          status := s.status.raise .ok }) ∧
                  (tt = 8#8 ∨ tt = 9#8 → ds = 0 →
                    exec .flvNextTag s = .next { c with status := s.status.raise .malformedHeader }) ∧
                  (tt = 18#8 →
                    ∀ r, r = amfDecode s.ibuf (t + 11) ds GAmf.zero metaRowsZero →
                      exec .flvNextTag s =
                        .next
                          { c with
                            amf := r.2.amf
                            metaRows := r.2.rows
                            status := s.status.raise r.1 }) ∧
                  (tt ≠ 8#8 → tt ≠ 9#8 → tt ≠ 18#8 →
                    exec .flvNextTag s =
                      .next { c with status := s.status.raise .unsupportedTagType })))

/-- The offset property (43_flv R189, marked derived in the spec): when two FLV_NEXT_TAG commands in a row consume a
tag each, the second tag header stands 15 + data_size of the first after the first, and that is the CONSUMED of
the first. -/
def Obligations.FlvTagOffsetsAdvanceByTheTag : Prop :=
  ∀ s t u : State, s.Inv → issue .flvNextTag s = .next t → t.consumed ≠ 0#32 →
    issue .flvNextTag t = .next u → u.consumed ≠ 0#32 →
    u.flvt.tagOff.toNat = t.flvt.tagOff.toNat + (15 + t.flvt.dataSize.toNat) ∧
      t.consumed.toNat = 15 + t.flvt.dataSize.toNat

/-- The PreviousTagSize check is informational (43_flv R183): whatever the previous-tag state is, FLV_NEXT_TAG ends in
the same code, consumes the same bytes and writes the same results, but for PTS_CHECKED, PTS_MISMATCH and the
previous-tag state itself: when a tag is consumed that is valid and the same in both, and when none is it is kept. -/
def Obligations.PreviousTagSizeCheckIsInformational : Prop :=
  ∀ (s t t' : State) (p : FlvPrev), exec .flvNextTag s = .next t →
    exec .flvNextTag { s with flvPrev := p } = .next t' →
    t' =
        { t with
          flvt :=
            { t.flvt with ptsChecked := t'.flvt.ptsChecked, ptsMismatch := t'.flvt.ptsMismatch }
          flvPrev := t'.flvPrev } ∧
      (t.pos ≠ s.pos → t.flvPrev = t'.flvPrev ∧ t.flvPrev.valid = true) ∧
      (t.pos = s.pos → t.flvPrev = s.flvPrev ∧ t'.flvPrev = p)

/-! ## The AMF decoder -/

/-- The decoder reads no byte outside its payload (43_flv R190, "every byte read is at P + k with k < n"): two buffers
that agree on [P, P + n) give the same result. -/
def Obligations.AmfDecodeReadsOnlyItsPayload : Prop :=
  ∀ (m m' : Memory) (p n : Nat) (amf : GAmf) (rows : Vector MetaRow 12),
    (∀ i, p ≤ i → i < p + n → Memory.read m i = Memory.read m' i) →
    amfDecode m p n amf rows = amfDecode m' p n amf rows

/-- The decoder recovers a whole payload: on the bytes of a name and an ECMA array of pairs with its end marker
(30_encoding R94) it ends in OK at the last byte, reports the name, the count and the pairs, and leaves in the
table exactly the values of the recognised keys, the last value winning (43_flv R190, R191). -/
def Obligations.AmfDecodeRecoversAnEncodedScript : Prop :=
  ∀ (m : Memory) (p n : Nat) (name : List Byte) (pairs : List (List Byte × AmfScalar))
    (rows : Vector MetaRow 12),
    ScriptFits name pairs → n = (encodeScript name pairs).length →
    bytesAt m p n = encodeScript name pairs →
    amfDecode m p n GAmf.zero rows =
      (.ok,
        { k := n
          amf :=
            { nameIsOnMetaData := name == onMetaDataBytes
              arrayPresent := true
              endSeen := true
              partialDecode := false
              decoded := true
              stopType := 0#8
              nameOff := Word.ofN (p + 3)
              nameLen := Word.ofN name.length
              count := Word.ofN pairs.length
              pairs := Word.ofN pairs.length
              stopOff := Word.ofN n }
          rows := storedRows (p + (3 + name.length) + 5) rows pairs })

/-- Exact byte tracking (43_flv R194): after the end marker k must equal n; remaining bytes give MALFORMED_HEADER with
END_SEEN = 1 and PARTIAL = 1. -/
def Obligations.AmfEndTracksExactBytes : Prop :=
  ∀ (m : Memory) (p n : Nat) (cur : AmfCur),
    cur.k + 3 ≤ n → bytesAt m (p + cur.k) 3 = [0x00#8, 0x00#8, 0x09#8] →
    (cur.k + 3 ≠ n →
      amfEnd m p n cur =
        (.malformedHeader,
          { cur with
            k := cur.k + 3
            amf :=
              { cur.amf with
                endSeen := true
                partialDecode := true
                stopOff := Word.ofN (cur.k + 3) } })) ∧
      (cur.k + 3 = n →
        amfEnd m p n cur =
          (.ok,
            { cur with
              k := n
              amf := { cur.amf with endSeen := true, stopOff := Word.ofN n } }))

/-- The key table (43_flv R191, 10_state R36): its twelve keys, written out; a key is recognised as row r exactly when
its bytes are those of the r-th key of the table; a recognised key writes its row and no other, an unrecognised
one writes nothing; and the name the decoder compares with (43_flv R190). -/
def Obligations.AmfStoreWritesOnlyTheRowOfTheKey : Prop :=
  metaKeys =
      [(0, ascii "duration"), (1, ascii "width"), (2, ascii "height"), (3, ascii "videodatarate"),
       (4, ascii "framerate"), (5, ascii "videocodecid"), (6, ascii "audiodatarate"),
       (7, ascii "audiosamplerate"), (8, ascii "audiosamplesize"), (9, ascii "stereo"),
       (10, ascii "audiocodecid"), (11, ascii "filesize")] ∧
    onMetaDataBytes = ascii "onMetaData" ∧
    (∀ (m : Memory) (i j : Nat) (r : Fin 12),
    metaKeyRow m i j = some r ↔ (r, bytesAt m i j) ∈ metaKeys) ∧
    (∀ (m : Memory) (i j : Nat),
      metaKeyRow m i j = none ↔ ∀ r, (r, bytesAt m i j) ∉ metaKeys) ∧
    ∀ (type : Byte) (hi lo : Word) (cur : AmfCur) (r k : Fin 12),
      amfStore none type hi lo cur = cur ∧
        (amfStore (some r) type hi lo cur).rows.get k =
          (if k = r then ⟨true, type, hi, lo⟩ else cur.rows.get k) ∧
        amfStore (some r) type hi lo cur =
          { cur with rows := (amfStore (some r) type hi lo cur).rows }

/-- Types that are not decoded (43_flv R192): a first value other than 0x02, a second other than 0x08, a pair value other
than 0x00, 0x01 and 0x02 stop the decoder with UNSUPPORTED_CODEC, PARTIAL = 1, STOP_TYPE = the byte and STOP_OFF its
offset; the rows stored before stay. -/
def Obligations.AmfUndecodedTypesStopTheDecoder : Prop :=
  ∀ (m : Memory) (p n : Nat) (row : Option (Fin 12)) (cur : AmfCur) (t : Byte)
    (stopped : ResultCode × AmfCur),
    t = Memory.read m (p + cur.k) → cur.k < n →
    stopped =
      (.unsupportedCodec,
        { cur with
          amf :=
            { cur.amf with
              stopType := t
              partialDecode := true
              stopOff := Word.ofN cur.k } }) →
    (t ≠ 0x02#8 → amfName m p n cur = .error stopped) ∧
      (t ≠ 0x08#8 → amfArray m p n cur = stopped) ∧
      (t ≠ 0x00#8 → t ≠ 0x01#8 → t ≠ 0x02#8 → amfValue m p n row cur = .error stopped)

/-- `need(m)` fails (43_flv R190): wherever the payload ends before the next read, the decoder stops with
MALFORMED_HEADER, PARTIAL = 1 and STOP_OFF the offset of that read, nothing else changed; three bytes that are not the
end marker stop it the same way (R196 (e), marked derived in the spec); and a pair that stops ends the loop. -/
def Obligations.AmfShortPayloadStopsTheDecoder : Prop :=
  ∀ (m : Memory) (p n : Nat) (row : Option (Fin 12)) (cur : AmfCur) (t : Byte) (len : Nat),
    t = Memory.read m (p + cur.k) →
    len = memRead m (p + cur.k + 1) 2 →
    (n < cur.k + 1 → amfName m p n cur = .error (amfMalformed cur)) ∧
      (t = 0x02#8 → cur.k + 1 ≤ n → n < cur.k + 3 →
        amfName m p n cur = .error (amfMalformed (cur.skip 1))) ∧
      (t = 0x02#8 → cur.k + 3 ≤ n → n < cur.k + 3 + len →
        amfName m p n cur = .error (amfMalformed (cur.skip 3))) ∧
      (t = 0x08#8 → n < cur.k + 5 → amfArray m p n cur = amfMalformed (cur.skip 1)) ∧
      (n < cur.k + 2 → amfPair m p n cur = .error (amfMalformed cur)) ∧
      (∀ j, j = memRead m (p + cur.k) 2 → cur.k + 2 ≤ n → n < cur.k + 2 + j →
        amfPair m p n cur = .error (amfMalformed (cur.skip 2))) ∧
      (n < cur.k + 1 → amfValue m p n row cur = .error (amfMalformed cur)) ∧
      (t = 0x00#8 → cur.k + 1 ≤ n → n < cur.k + 9 →
        amfValue m p n row cur = .error (amfMalformed (cur.skip 1))) ∧
      (t = 0x01#8 → cur.k + 1 ≤ n → n < cur.k + 2 →
        amfValue m p n row cur = .error (amfMalformed (cur.skip 1))) ∧
      (t = 0x02#8 → cur.k + 1 ≤ n → n < cur.k + 3 →
        amfValue m p n row cur = .error (amfMalformed (cur.skip 1))) ∧
      (t = 0x02#8 → cur.k + 3 ≤ n → n < cur.k + 3 + len →
        amfValue m p n row cur = .error (amfMalformed (cur.skip 3))) ∧
      (n < cur.k + 3 → amfEnd m p n cur = amfMalformed cur) ∧
      (cur.k + 3 ≤ n → bytesAt m (p + cur.k) 3 ≠ [0x00#8, 0x00#8, 0x09#8] →
        amfEnd m p n cur = amfMalformed cur) ∧
      (∀ j c e, j = memRead m (p + cur.k) 2 → cur.k + 2 + j ≤ n →
        c = cur.skip (2 + j) →
        amfValue m p n (metaKeyRow m (p + cur.k + 2) j) c = .error e →
        ∀ cnt, amfPairs m p n (cnt + 1) cur = .error e)

/-- A payload of one String alone (43_flv R190, `k = n` after the name): the decoder ends in OK with the name
reported, no array, and STOP_OFF = n; and an empty payload (R196 (a), marked derived in the spec) stops at offset 0. -/
def Obligations.AmfNameAloneIsAWholePayload : Prop :=
  (∀ (m : Memory) (p n : Nat) (name : List Byte) (rows : Vector MetaRow 12),
    name.length < 65536 → n = (AmfScalar.text name).encode.length →
    bytesAt m p n = (AmfScalar.text name).encode →
    amfDecode m p n GAmf.zero rows =
      (.ok,
        { k := n
          amf :=
            { GAmf.zero with
              nameIsOnMetaData := name == ascii "onMetaData"
              decoded := true
              nameOff := Word.ofN (p + 3)
              nameLen := Word.ofN name.length
              stopOff := Word.ofN n }
          rows := rows })) ∧
    ∀ (m : Memory) (p : Nat) (rows : Vector MetaRow 12),
      amfDecode m p 0 GAmf.zero rows =
        (.malformedHeader,
          { k := 0
            amf := { GAmf.zero with decoded := true, partialDecode := true }
            rows := rows })

/-- The outcome of a Script tag (43_flv R195, marked derived in the spec): a whole tag has DECODED = 1, its code is OK,
UNSUPPORTED_CODEC or MALFORMED_HEADER, and PARTIAL = 1 exactly when it is not OK; a tag that is not whole has
DECODED = 0. -/
def Obligations.ScriptOutcomeIsReported : Prop :=
  ∀ s t : State, s.Inv → exec .flvNextTag s = .next t →
    (t.consumed = 0#32 → t.amf.decoded = false) ∧
      (t.consumed ≠ 0#32 → t.flvt.kind = .script →
        t.amf.decoded = true ∧
          (t.status.code = .ok ∨ t.status.code = .unsupportedCodec ∨
            t.status.code = .malformedHeader) ∧
          (t.amf.partialDecode = true ↔ t.status.code ≠ .ok))

/-! ## RTP_PARSE and TS_NEXT -/

/-- RTP_PARSE (44_rtp R210), case by case in the order of its pseudocode. -/
def Obligations.RtpParseDecodesTheDatagram : Prop :=
  Instr.opcode .rtpParse = 0x05#8 ∧ ∀ s : State, s.Inv → ∀ n p0 : Nat, n = s.arg.toNat → p0 = s.pos.toNat →
    (s.len.toNat - p0 < n →
      exec .rtpParse s =
        .next
          { s with
            consumed := 0#32
            skipped := 0#32
            rtp := GRtp.zero
            ts := GTs.zero
            tsIter := TsIter.zero
            status := s.status.raise (shortfallCode s.latch n) }) ∧
      (n ≤ s.len.toNat - p0 → n < 12 →
        exec .rtpParse s =
          .next
            { s with
              pos := Word.ofN (p0 + n)
              consumed := Word.ofN n
              skipped := 0#32
              rtp := GRtp.zero
              ts := GTs.zero
              tsIter := TsIter.zero
              status := s.status.raise .truncated }) ∧
      (n ≤ s.len.toNat - p0 → 12 ≤ n →
        ∀ (r0 r1 : Byte) (g : GRtp) (c : State), r0 = Memory.read s.ibuf p0 →
          r1 = Memory.read s.ibuf (p0 + 1) →
          g =
            { version := r0.extractLsb 7 6
              padding := r0.getLsbD 5
              extension := r0.getLsbD 4
              csrcCount := r0.extractLsb 3 0
              marker := r1.getLsbD 7
              payloadType := r1.extractLsb 6 0
              seq := Memory.read s.ibuf (p0 + 2) ++ Memory.read s.ibuf (p0 + 3)
              timestamp :=
                Memory.read s.ibuf (p0 + 4) ++ Memory.read s.ibuf (p0 + 5) ++
                  Memory.read s.ibuf (p0 + 6) ++ Memory.read s.ibuf (p0 + 7)
              ssrc :=
                Memory.read s.ibuf (p0 + 8) ++ Memory.read s.ibuf (p0 + 9) ++
                  Memory.read s.ibuf (p0 + 10) ++ Memory.read s.ibuf (p0 + 11)
              dgramOff := Word.ofN p0
              payOff := Word.ofN (p0 + 12)
              payLen := Word.ofN (n - 12)
              tsCount := 0#32
              tsResidue := 0#32 } →
          c =
            { s with
              pos := Word.ofN (p0 + n)
              consumed := Word.ofN n
              skipped := 0#32
              rtp := g
              ts := GTs.zero
              tsIter := TsIter.zero
              status := s.status.raise .ok } →
          (r1.toNat % 128 ≠ 33 → exec .rtpParse s = .next c) ∧
            (r1.toNat % 128 = 33 →
              exec .rtpParse s =
                .next
                  { c with
                    rtp :=
                      { g with
                        tsCount := Word.ofN ((n - 12) / 188)
                        tsResidue := Word.ofN ((n - 12) % 188) }
                    tsIter := ⟨true, 0#16, Word.ofN (p0 + 12), Word.ofN (p0 + n)⟩ }))

/-- TS_NEXT (44_rtp R220), case by case in the order of its pseudocode. -/
def Obligations.TsNextReportsTheNextStride : Prop :=
  Instr.opcode .tsNext = 0x06#8 ∧ ∀ s : State, s.Inv → ∀ x : Nat, x = s.tsIter.nextOff.toNat →
    (s.tsIter.active = false →
      exec .tsNext s =
        .next
          { s with
            consumed := 0#32
            skipped := 0#32
            ts := GTs.zero
            status := s.status.raise .endOfStream }) ∧
      (s.tsIter.active = true → s.tsIter.endOff.toNat - x < 188 →
        exec .tsNext s =
          .next
            { s with
              consumed := 0#32
              skipped := 0#32
              ts := GTs.zero
              tsIter := ⟨false, 0#16, 0#32, 0#32⟩
              status := s.status.raise .endOfStream }) ∧
      (s.tsIter.active = true → 188 ≤ s.tsIter.endOff.toNat - x → Memory.read s.ibuf x ≠ 0x47#8 →
        exec .tsNext s =
          .next
            { s with
              consumed := 0#32
              skipped := 0#32
              ts :=
                { GTs.zero with
                  syncByte := Memory.read s.ibuf x
                  pktOff := Word.ofN x
                  index := s.tsIter.nextIndex.setWidth 32 }
              tsIter := ⟨false, 0#16, 0#32, 0#32⟩
              status := s.status.raise .malformedHeader }) ∧
      (s.tsIter.active = true → 188 ≤ s.tsIter.endOff.toNat - x → Memory.read s.ibuf x = 0x47#8 →
        ∀ m1 m2 m3 : Byte, m1 = Memory.read s.ibuf (x + 1) → m2 = Memory.read s.ibuf (x + 2) →
          m3 = Memory.read s.ibuf (x + 3) →
          exec .tsNext s =
            .next
              { s with
                consumed := 0#32
                skipped := 0#32
                ts :=
                  { syncByte := 0x47#8
                    transportError := m1.getLsbD 7
                    payloadStart := m1.getLsbD 6
                    priority := m1.getLsbD 5
                    pid := m1.extractLsb 4 0 ++ m2
                    scrambling := m3.extractLsb 7 6
                    afc := m3.extractLsb 5 4
                    cc := m3.extractLsb 3 0
                    pktOff := Word.ofN x
                    payOff := Word.ofN (x + 4)
                    payLen := 184#32
                    index := s.tsIter.nextIndex.setWidth 32 }
                tsIter :=
                  ⟨true, BitVec.ofNat 16 (s.tsIter.nextIndex.toNat + 1), Word.ofN (x + 188),
                    s.tsIter.endOff⟩
                status := s.status.raise .ok })

/-- The strides of a datagram (44_rtp R222 (b), marked derived in the spec): with every whole stride beginning with
0x47, TS_NEXT issued again and again reports each of them in order, with its index modulo 2^16, and then
END_OF_STREAM with the iterator cancelled. -/
def Obligations.TsSessionReportsEveryStride : Prop :=
  ∀ (s : State) (x n : Nat), s.Inv → s.tsIter.active = true → s.tsIter.nextIndex = 0#16 →
    x = s.tsIter.nextOff.toNat → n = (s.tsIter.endOff.toNat - x) / 188 →
    (∀ k, k < n → Memory.read s.ibuf (x + 188 * k) = 0x47#8) →
    ∃ (ts : List State) (u v : State), OkSession .tsNext s ts u ∧ ts.length = n ∧
      (∀ (k : Nat) (t : State), ts[k]? = some t →
        t.ts.pktOff.toNat = x + 188 * k ∧ t.ts.index.toNat = k % 65536) ∧
      issue .tsNext u = .next v ∧ v.status.code = .endOfStream ∧ v.tsIter = TsIter.zero

/-! ## What every command shares -/

/-- Completion (60_exceptions R231): every command, run from any state, ends in a next state with BUSY = 0 and DONE = 1;
no command but SOFT_RESET changes LAST_OP or a sticky flag; a raise writes CODE, BUSY and DONE alone; and outside reset
and the engine's turn on a busy block, a step keeps CODE and every result register, and LAST_OP unless it accepts
a CMD write. That an accepted CMD write itself still keeps the result registers, which are cleared at the engine's
turn, is the model's choice (log 2, log 3). -/
def Obligations.EveryCommandCompletes : Prop :=
  (∀ (i : Instr) (s : State), ∃ t, exec i s = .next t ∧ t.status.busy = false ∧ t.status.done = true ∧
    (i ≠ .softReset →
      t.status.lastOp = s.status.lastOp ∧ t.status.overflow = s.status.overflow ∧
        t.status.busyWrite = s.status.busyWrite)) ∧
    (∀ (c : ResultCode) (s : State),
      complete c s =
        { s with
          status := ⟨false, true, s.status.overflow, s.status.busyWrite, c, s.status.lastOp⟩ }) ∧
    ∀ s t : State, step s = .next t → s.inputs.head? ≠ some .resetPin →
      ¬ (EngineTurnNext s ∧ s.status.busy = true) →
      t.consumed = s.consumed ∧ t.skipped = s.skipped ∧ t.nal = s.nal ∧ t.adts = s.adts ∧
        t.flvh = s.flvh ∧ t.flvt = s.flvt ∧ t.amf = s.amf ∧ t.metaRows = s.metaRows ∧
        t.rtp = s.rtp ∧ t.ts = s.ts ∧ t.status.code = s.status.code ∧
        (t.status.lastOp ≠ s.status.lastOp →
          s.status.busy = false ∧
            ∃ v rest, s.inputs = .access (.write .word 0x00C#32 v) :: rest)

/-- Short input (40_cursor R111): TRUNCATED at end of stream, CAPACITY_EXCEEDED when need > BUF_CAP, else
NEED_MORE_DATA; POS and everything else but STATUS stay; a command that ends in one of the three for want of
input consumes nothing; and one that ended in NEED_MORE_DATA, repeated with nothing appended and EOS
unchanged, leaves the very same state (R111 says the same code and marks that sentence as derived; the same state
follows from R110 and R111). -/
def Obligations.ShortfallConsumesNothing : Prop :=
  (∀ (s r : State) (need : Nat),
    shortfall s.latch need r =
      { r with
        status :=
          ⟨false, true, r.status.overflow, r.status.busyWrite,
            if s.ctrl.eos = true then .truncated
            else if s.cap.toNat < need then .capacityExceeded else .needMoreData,
            r.status.lastOp⟩ }) ∧
    (∀ (i : Instr) (s t : State), exec i s = .next t →
      t.status.code = .needMoreData ∨ t.status.code = .capacityExceeded ∨
        (t.status.code = .truncated ∧
          ¬ (i = .rtpParse ∧ s.arg.toNat < 12 ∧ s.arg.toNat ≤ s.len.toNat - s.pos.toNat)) →
      t.pos = s.pos ∧ t.consumed = 0#32 ∧ t.ibuf = s.ibuf ∧ t.len = s.len) ∧
    ∀ (i : Instr) (s t : State), exec i s = .next t → t.status.code = .needMoreData →
      exec i t = .next t

/-- Command start (40_cursor R110, R112): CONSUMED and SKIPPED are 0, exactly the groups of the table are cleared, and
what the command latches is what the state held. -/
def Obligations.StartClearsExactlyItsGroups : Prop :=
  ∀ s : State,
    s.latch = ⟨s.pos.toNat, s.len.toNat, s.cap.toNat, s.arg.toNat, s.ctrl.eos⟩ ∧
      startCommand .nalNext s = { s with consumed := 0#32, skipped := 0#32, nal := GNal.zero } ∧
      startCommand .adtsNext s = { s with consumed := 0#32, skipped := 0#32, adts := GAdts.zero } ∧
      startCommand .flvHeader s = { s with consumed := 0#32, skipped := 0#32, flvh := GFlvh.zero } ∧
      startCommand .flvNextTag s =
        { s with
          consumed := 0#32
          skipped := 0#32
          flvt := GFlvt.zero
          amf := GAmf.zero
          metaRows := metaRowsZero } ∧
      startCommand .rtpParse s =
        { s with consumed := 0#32, skipped := 0#32, rtp := GRtp.zero, ts := GTs.zero } ∧
      startCommand .tsNext s = { s with consumed := 0#32, skipped := 0#32, ts := GTs.zero } ∧
      (∀ i ∈ [Instr.seek, .advance, .compact],
        startCommand i s = { s with consumed := 0#32, skipped := 0#32 })

/-- The frame of every command (40_cursor R112, 20_memory R67): a command other than SOFT_RESET leaves CTRL, ARG, CAP, the
sticky flags, LAST_OP and the model's own fields; every group it does not clear; the FLV previous-tag state
unless it is an FLV command; the TS iterator unless it is RTP_PARSE, TS_NEXT or COMPACT; POS if it is TS_NEXT; and
LEN with every byte of IBUF unless it is COMPACT. -/
def Obligations.CommandsKeepWhatTheyDoNotOwn : Prop :=
  ∀ (i : Instr) (s t : State), exec i s = .next t → i ≠ .softReset →
    t.ctrl = s.ctrl ∧ t.arg = s.arg ∧ t.cap = s.cap ∧ t.status.overflow = s.status.overflow ∧
      t.status.busyWrite = s.status.busyWrite ∧ t.status.lastOp = s.status.lastOp ∧
      t.inputs = s.inputs ∧ t.response = s.response ∧ t.freeCount = s.freeCount ∧
      (i ≠ .nalNext → t.nal = s.nal) ∧ (i ≠ .adtsNext → t.adts = s.adts) ∧
      (i ≠ .flvHeader → t.flvh = s.flvh) ∧
      (i ≠ .flvNextTag → t.flvt = s.flvt ∧ t.amf = s.amf ∧ t.metaRows = s.metaRows) ∧
      (i ≠ .rtpParse → t.rtp = s.rtp) ∧ (i ≠ .rtpParse → i ≠ .tsNext → t.ts = s.ts) ∧
      (i ≠ .flvHeader → i ≠ .flvNextTag → t.flvPrev = s.flvPrev) ∧
      (i ≠ .rtpParse → i ≠ .tsNext → i ≠ .compact → t.tsIter = s.tsIter) ∧
      (i = .tsNext → t.pos = s.pos) ∧
      (i ≠ .compact → t.len = s.len ∧ ∀ k, Memory.read t.ibuf k = Memory.read s.ibuf k)

/-- Each command ends only in the codes its rule lists (60_exceptions R230, 41_nal R137). -/
def Obligations.CommandsEndInTheirOwnCodes : Prop :=
  ∀ (i : Instr) (s t : State), exec i s = .next t → t.status.code ∈ raisable i

/-- Consumption by code (60_exceptions R234, marked derived in the spec; 40_cursor R113): outside SEEK, COMPACT and
SOFT_RESET the cursor moves forward by exactly CONSUMED, stays at or below LEN, and moves only with the codes R234 lists; those
three leave CONSUMED = 0. -/
def Obligations.PosMovesByConsumed : Prop :=
  ∀ (i : Instr) (s t : State), s.Inv → exec i s = .next t →
    (i ≠ .seek → i ≠ .compact → i ≠ .softReset →
      t.pos.toNat = s.pos.toNat + t.consumed.toNat ∧ t.pos.toNat ≤ t.len.toNat ∧
        (consumes i t.status.code = false → t.pos = s.pos ∧ t.consumed = 0#32)) ∧
      (i = .seek ∨ i = .compact ∨ i = .softReset → t.consumed = 0#32)

/-! ## The whole machine -/

/-- What moves the cursor registers (10_state R26): CAP never changes; POS changes only by a command or reset; LEN only by
a DATA_IN append, COMPACT, SOFT_RESET or reset. -/
def Obligations.CursorRegistersChangeOnlyByTheirEvents : Prop :=
  ∀ s t : State, step s = .next t →
    t.cap = s.cap ∧
      (t.pos ≠ s.pos →
        (EngineTurnNext s ∧ ∃ i, Running s i) ∨ s.inputs.head? = some .resetPin) ∧
      (t.len ≠ s.len →
        (EngineTurnNext s ∧ (Running s .compact ∨ Running s .softReset)) ∨
          s.inputs.head? = some .resetPin ∨
          (s.status.busy = false ∧ s.len ≠ s.cap ∧
            ∃ v rest, s.inputs = .access (.write .word 0x01C#32 v) :: rest))

/-- The sticky flags (10_state R23, with SOFT_RESET by 40_cursor R123, log 11): OVERFLOW rises only at a DATA_IN write with LEN
= BUF_CAP, BUSY_WRITE only at a write while BUSY = 1; each falls only at a write of 1 to it, at SOFT_RESET or at reset. -/
def Obligations.StickyFlagsStay : Prop :=
  ∀ s t : State, step s = .next t →
    (s.status.overflow = false → t.status.overflow = true →
      s.status.busy = false ∧ s.len = s.cap ∧
        ∃ v rest, s.inputs = .access (.write .word 0x01C#32 v) :: rest) ∧
      (s.status.busyWrite = false → t.status.busyWrite = true →
        s.status.busy = true ∧ ∃ off v rest, s.inputs = .access (.write .word off v) :: rest) ∧
      (s.status.overflow = true → t.status.overflow = false →
        (∃ v rest, s.inputs = .access (.write .word 0x008#32 v) :: rest ∧ v.getLsbD 2 = true) ∨
          s.inputs.head? = some .resetPin ∨ (EngineTurnNext s ∧ Running s .softReset)) ∧
      (s.status.busyWrite = true → t.status.busyWrite = false →
        (∃ v rest, s.inputs = .access (.write .word 0x008#32 v) :: rest ∧ v.getLsbD 3 = true) ∨
          s.inputs.head? = some .resetPin ∨ (EngineTurnNext s ∧ Running s .softReset))

/-- Slice validity (70_reset_and_hazards R263): a step that is not COMPACT, SOFT_RESET or reset keeps every byte below LEN
at its index, and LEN does not shrink. -/
def Obligations.SlicesStayValidUntilCompactOrReset : Prop :=
  ∀ s t : State, s.Inv → step s = .next t → s.inputs.head? ≠ some .resetPin →
    ¬ (EngineTurnNext s ∧ (Running s .compact ∨ Running s .softReset)) →
    s.len.toNat ≤ t.len.toNat ∧
      ∀ i, i < s.len.toNat → Memory.read t.ibuf i = Memory.read s.ibuf i

/-- The invariant (10_state R26 and the legal values of the other fields) is kept by every step from every state that
meets it. -/
def Obligations.EveryStepKeepsTheInvariant : Prop :=
  ∀ s t : State, s.Inv → step s = .next t → t.Inv

/-- The state after reset meets the invariant, for every legal BUF_CAP, and for the reset state with the recommended
BUF_CAP that the model chose (log 4). -/
def Obligations.ResetMeetsTheInvariant : Prop :=
  State.reset.Inv ∧
    ∀ cap : Word, 64 ≤ cap.toNat → cap.toNat ≤ 16777216 → (State.resetWith cap).Inv

/-- Entries of IBUF at or above LEN are never observable (10_state R40): two states that differ only in such entries take the
same step, to states that again differ only in such entries. -/
def Obligations.EntriesAboveLenAreUnobservable : Prop :=
  ∀ (s : State) (m : Memory), s.CursorInv → Memory.wf s.ibuf → Memory.wf m →
    (∀ k, k < s.len.toNat → Memory.read m k = Memory.read s.ibuf k) →
    match step s, step { s with ibuf := m } with
    | .next t, .next t' =>
      t' = { t with ibuf := t'.ibuf } ∧
        ∀ k, k < t.len.toNat → Memory.read t'.ibuf k = Memory.read t.ibuf k
    | .fault f, .fault f' => f = f'
    | .refused r, .refused r' => r = r'
    | _, _ => False
end

