-- ==== Sys2Proof/Laws/State.lean ====
section
/-! SUPPORT. One lemma per field per named update of State, each true by rfl and in the simp set, so that no
later proof unfolds a record update. -/

namespace Sys2Proof.Machine

/-! ### complete, the spec's raise (60_exceptions R231): only STATUS changes -/

@[simp] theorem complete_ctrl (c : ResultCode) (s : State) :
    (complete c s).ctrl = s.ctrl := rfl
@[simp] theorem complete_status (c : ResultCode) (s : State) :
    (complete c s).status = s.status.raise c := rfl
@[simp] theorem complete_arg (c : ResultCode) (s : State) :
    (complete c s).arg = s.arg := rfl
@[simp] theorem complete_pos (c : ResultCode) (s : State) :
    (complete c s).pos = s.pos := rfl
@[simp] theorem complete_len (c : ResultCode) (s : State) :
    (complete c s).len = s.len := rfl
@[simp] theorem complete_cap (c : ResultCode) (s : State) :
    (complete c s).cap = s.cap := rfl
@[simp] theorem complete_consumed (c : ResultCode) (s : State) :
    (complete c s).consumed = s.consumed := rfl
@[simp] theorem complete_skipped (c : ResultCode) (s : State) :
    (complete c s).skipped = s.skipped := rfl
@[simp] theorem complete_nal (c : ResultCode) (s : State) :
    (complete c s).nal = s.nal := rfl
@[simp] theorem complete_adts (c : ResultCode) (s : State) :
    (complete c s).adts = s.adts := rfl
@[simp] theorem complete_flvh (c : ResultCode) (s : State) :
    (complete c s).flvh = s.flvh := rfl
@[simp] theorem complete_flvt (c : ResultCode) (s : State) :
    (complete c s).flvt = s.flvt := rfl
@[simp] theorem complete_amf (c : ResultCode) (s : State) :
    (complete c s).amf = s.amf := rfl
@[simp] theorem complete_metaRows (c : ResultCode) (s : State) :
    (complete c s).metaRows = s.metaRows := rfl
@[simp] theorem complete_flvPrev (c : ResultCode) (s : State) :
    (complete c s).flvPrev = s.flvPrev := rfl
@[simp] theorem complete_rtp (c : ResultCode) (s : State) :
    (complete c s).rtp = s.rtp := rfl
@[simp] theorem complete_ts (c : ResultCode) (s : State) :
    (complete c s).ts = s.ts := rfl
@[simp] theorem complete_tsIter (c : ResultCode) (s : State) :
    (complete c s).tsIter = s.tsIter := rfl
@[simp] theorem complete_ibuf (c : ResultCode) (s : State) :
    (complete c s).ibuf = s.ibuf := rfl
@[simp] theorem complete_inputs (c : ResultCode) (s : State) :
    (complete c s).inputs = s.inputs := rfl
@[simp] theorem complete_response (c : ResultCode) (s : State) :
    (complete c s).response = s.response := rfl
@[simp] theorem complete_freeCount (c : ResultCode) (s : State) :
    (complete c s).freeCount = s.freeCount := rfl

/-! ### acceptCommand (10_state R24): only STATUS changes -/

@[simp] theorem acceptCommand_ctrl (w : Word) (s : State) :
    (acceptCommand w s).ctrl = s.ctrl := rfl
@[simp] theorem acceptCommand_status (w : Word) (s : State) :
    (acceptCommand w s).status = s.status.accept (w.setWidth 8) := rfl
@[simp] theorem acceptCommand_arg (w : Word) (s : State) :
    (acceptCommand w s).arg = s.arg := rfl
@[simp] theorem acceptCommand_pos (w : Word) (s : State) :
    (acceptCommand w s).pos = s.pos := rfl
@[simp] theorem acceptCommand_len (w : Word) (s : State) :
    (acceptCommand w s).len = s.len := rfl
@[simp] theorem acceptCommand_cap (w : Word) (s : State) :
    (acceptCommand w s).cap = s.cap := rfl
@[simp] theorem acceptCommand_consumed (w : Word) (s : State) :
    (acceptCommand w s).consumed = s.consumed := rfl
@[simp] theorem acceptCommand_skipped (w : Word) (s : State) :
    (acceptCommand w s).skipped = s.skipped := rfl
@[simp] theorem acceptCommand_nal (w : Word) (s : State) :
    (acceptCommand w s).nal = s.nal := rfl
@[simp] theorem acceptCommand_adts (w : Word) (s : State) :
    (acceptCommand w s).adts = s.adts := rfl
@[simp] theorem acceptCommand_flvh (w : Word) (s : State) :
    (acceptCommand w s).flvh = s.flvh := rfl
@[simp] theorem acceptCommand_flvt (w : Word) (s : State) :
    (acceptCommand w s).flvt = s.flvt := rfl
@[simp] theorem acceptCommand_amf (w : Word) (s : State) :
    (acceptCommand w s).amf = s.amf := rfl
@[simp] theorem acceptCommand_metaRows (w : Word) (s : State) :
    (acceptCommand w s).metaRows = s.metaRows := rfl
@[simp] theorem acceptCommand_flvPrev (w : Word) (s : State) :
    (acceptCommand w s).flvPrev = s.flvPrev := rfl
@[simp] theorem acceptCommand_rtp (w : Word) (s : State) :
    (acceptCommand w s).rtp = s.rtp := rfl
@[simp] theorem acceptCommand_ts (w : Word) (s : State) :
    (acceptCommand w s).ts = s.ts := rfl
@[simp] theorem acceptCommand_tsIter (w : Word) (s : State) :
    (acceptCommand w s).tsIter = s.tsIter := rfl
@[simp] theorem acceptCommand_ibuf (w : Word) (s : State) :
    (acceptCommand w s).ibuf = s.ibuf := rfl
@[simp] theorem acceptCommand_inputs (w : Word) (s : State) :
    (acceptCommand w s).inputs = s.inputs := rfl
@[simp] theorem acceptCommand_response (w : Word) (s : State) :
    (acceptCommand w s).response = s.response := rfl
@[simp] theorem acceptCommand_freeCount (w : Word) (s : State) :
    (acceptCommand w s).freeCount = s.freeCount := rfl

/-! ### consumeTo (40_cursor R113): only POS and CONSUMED change -/

@[simp] theorem consumeTo_ctrl (l : Latch) (p : Nat) (s : State) :
    (consumeTo l p s).ctrl = s.ctrl := rfl
@[simp] theorem consumeTo_status (l : Latch) (p : Nat) (s : State) :
    (consumeTo l p s).status = s.status := rfl
@[simp] theorem consumeTo_arg (l : Latch) (p : Nat) (s : State) :
    (consumeTo l p s).arg = s.arg := rfl
@[simp] theorem consumeTo_pos (l : Latch) (p : Nat) (s : State) :
    (consumeTo l p s).pos = Word.ofN p := rfl
@[simp] theorem consumeTo_len (l : Latch) (p : Nat) (s : State) :
    (consumeTo l p s).len = s.len := rfl
@[simp] theorem consumeTo_cap (l : Latch) (p : Nat) (s : State) :
    (consumeTo l p s).cap = s.cap := rfl
@[simp] theorem consumeTo_consumed (l : Latch) (p : Nat) (s : State) :
    (consumeTo l p s).consumed = Word.ofN (p - l.p0) := rfl
@[simp] theorem consumeTo_skipped (l : Latch) (p : Nat) (s : State) :
    (consumeTo l p s).skipped = s.skipped := rfl
@[simp] theorem consumeTo_nal (l : Latch) (p : Nat) (s : State) :
    (consumeTo l p s).nal = s.nal := rfl
@[simp] theorem consumeTo_adts (l : Latch) (p : Nat) (s : State) :
    (consumeTo l p s).adts = s.adts := rfl
@[simp] theorem consumeTo_flvh (l : Latch) (p : Nat) (s : State) :
    (consumeTo l p s).flvh = s.flvh := rfl
@[simp] theorem consumeTo_flvt (l : Latch) (p : Nat) (s : State) :
    (consumeTo l p s).flvt = s.flvt := rfl
@[simp] theorem consumeTo_amf (l : Latch) (p : Nat) (s : State) :
    (consumeTo l p s).amf = s.amf := rfl
@[simp] theorem consumeTo_metaRows (l : Latch) (p : Nat) (s : State) :
    (consumeTo l p s).metaRows = s.metaRows := rfl
@[simp] theorem consumeTo_flvPrev (l : Latch) (p : Nat) (s : State) :
    (consumeTo l p s).flvPrev = s.flvPrev := rfl
@[simp] theorem consumeTo_rtp (l : Latch) (p : Nat) (s : State) :
    (consumeTo l p s).rtp = s.rtp := rfl
@[simp] theorem consumeTo_ts (l : Latch) (p : Nat) (s : State) :
    (consumeTo l p s).ts = s.ts := rfl
@[simp] theorem consumeTo_tsIter (l : Latch) (p : Nat) (s : State) :
    (consumeTo l p s).tsIter = s.tsIter := rfl
@[simp] theorem consumeTo_ibuf (l : Latch) (p : Nat) (s : State) :
    (consumeTo l p s).ibuf = s.ibuf := rfl
@[simp] theorem consumeTo_inputs (l : Latch) (p : Nat) (s : State) :
    (consumeTo l p s).inputs = s.inputs := rfl
@[simp] theorem consumeTo_response (l : Latch) (p : Nat) (s : State) :
    (consumeTo l p s).response = s.response := rfl
@[simp] theorem consumeTo_freeCount (l : Latch) (p : Nat) (s : State) :
    (consumeTo l p s).freeCount = s.freeCount := rfl

/-! ### appendByte (10_state R28): only IBUF and LEN change -/

@[simp] theorem appendByte_ctrl (b : Byte) (s : State) :
    (appendByte b s).ctrl = s.ctrl := rfl
@[simp] theorem appendByte_status (b : Byte) (s : State) :
    (appendByte b s).status = s.status := rfl
@[simp] theorem appendByte_arg (b : Byte) (s : State) :
    (appendByte b s).arg = s.arg := rfl
@[simp] theorem appendByte_pos (b : Byte) (s : State) :
    (appendByte b s).pos = s.pos := rfl
@[simp] theorem appendByte_len (b : Byte) (s : State) :
    (appendByte b s).len = Word.ofN (s.len.toNat + 1) := rfl
@[simp] theorem appendByte_cap (b : Byte) (s : State) :
    (appendByte b s).cap = s.cap := rfl
@[simp] theorem appendByte_consumed (b : Byte) (s : State) :
    (appendByte b s).consumed = s.consumed := rfl
@[simp] theorem appendByte_skipped (b : Byte) (s : State) :
    (appendByte b s).skipped = s.skipped := rfl
@[simp] theorem appendByte_nal (b : Byte) (s : State) :
    (appendByte b s).nal = s.nal := rfl
@[simp] theorem appendByte_adts (b : Byte) (s : State) :
    (appendByte b s).adts = s.adts := rfl
@[simp] theorem appendByte_flvh (b : Byte) (s : State) :
    (appendByte b s).flvh = s.flvh := rfl
@[simp] theorem appendByte_flvt (b : Byte) (s : State) :
    (appendByte b s).flvt = s.flvt := rfl
@[simp] theorem appendByte_amf (b : Byte) (s : State) :
    (appendByte b s).amf = s.amf := rfl
@[simp] theorem appendByte_metaRows (b : Byte) (s : State) :
    (appendByte b s).metaRows = s.metaRows := rfl
@[simp] theorem appendByte_flvPrev (b : Byte) (s : State) :
    (appendByte b s).flvPrev = s.flvPrev := rfl
@[simp] theorem appendByte_rtp (b : Byte) (s : State) :
    (appendByte b s).rtp = s.rtp := rfl
@[simp] theorem appendByte_ts (b : Byte) (s : State) :
    (appendByte b s).ts = s.ts := rfl
@[simp] theorem appendByte_tsIter (b : Byte) (s : State) :
    (appendByte b s).tsIter = s.tsIter := rfl
@[simp] theorem appendByte_ibuf (b : Byte) (s : State) :
    (appendByte b s).ibuf = Memory.write s.ibuf s.len.toNat b := rfl
@[simp] theorem appendByte_inputs (b : Byte) (s : State) :
    (appendByte b s).inputs = s.inputs := rfl
@[simp] theorem appendByte_response (b : Byte) (s : State) :
    (appendByte b s).response = s.response := rfl
@[simp] theorem appendByte_freeCount (b : Byte) (s : State) :
    (appendByte b s).freeCount = s.freeCount := rfl

/-! ### cancelIterator (44_rtp R214): only the iterator changes -/

@[simp] theorem cancelIterator_ctrl (s : State) :
    (cancelIterator s).ctrl = s.ctrl := rfl
@[simp] theorem cancelIterator_status (s : State) :
    (cancelIterator s).status = s.status := rfl
@[simp] theorem cancelIterator_arg (s : State) :
    (cancelIterator s).arg = s.arg := rfl
@[simp] theorem cancelIterator_pos (s : State) :
    (cancelIterator s).pos = s.pos := rfl
@[simp] theorem cancelIterator_len (s : State) :
    (cancelIterator s).len = s.len := rfl
@[simp] theorem cancelIterator_cap (s : State) :
    (cancelIterator s).cap = s.cap := rfl
@[simp] theorem cancelIterator_consumed (s : State) :
    (cancelIterator s).consumed = s.consumed := rfl
@[simp] theorem cancelIterator_skipped (s : State) :
    (cancelIterator s).skipped = s.skipped := rfl
@[simp] theorem cancelIterator_nal (s : State) :
    (cancelIterator s).nal = s.nal := rfl
@[simp] theorem cancelIterator_adts (s : State) :
    (cancelIterator s).adts = s.adts := rfl
@[simp] theorem cancelIterator_flvh (s : State) :
    (cancelIterator s).flvh = s.flvh := rfl
@[simp] theorem cancelIterator_flvt (s : State) :
    (cancelIterator s).flvt = s.flvt := rfl
@[simp] theorem cancelIterator_amf (s : State) :
    (cancelIterator s).amf = s.amf := rfl
@[simp] theorem cancelIterator_metaRows (s : State) :
    (cancelIterator s).metaRows = s.metaRows := rfl
@[simp] theorem cancelIterator_flvPrev (s : State) :
    (cancelIterator s).flvPrev = s.flvPrev := rfl
@[simp] theorem cancelIterator_rtp (s : State) :
    (cancelIterator s).rtp = s.rtp := rfl
@[simp] theorem cancelIterator_ts (s : State) :
    (cancelIterator s).ts = s.ts := rfl
@[simp] theorem cancelIterator_tsIter (s : State) :
    (cancelIterator s).tsIter = TsIter.zero := rfl
@[simp] theorem cancelIterator_ibuf (s : State) :
    (cancelIterator s).ibuf = s.ibuf := rfl
@[simp] theorem cancelIterator_inputs (s : State) :
    (cancelIterator s).inputs = s.inputs := rfl
@[simp] theorem cancelIterator_response (s : State) :
    (cancelIterator s).response = s.response := rfl
@[simp] theorem cancelIterator_freeCount (s : State) :
    (cancelIterator s).freeCount = s.freeCount := rfl

/-! ### respond: only the answer changes -/

@[simp] theorem respond_ctrl (r : Response) (s : State) :
    (respond r s).ctrl = s.ctrl := rfl
@[simp] theorem respond_status (r : Response) (s : State) :
    (respond r s).status = s.status := rfl
@[simp] theorem respond_arg (r : Response) (s : State) :
    (respond r s).arg = s.arg := rfl
@[simp] theorem respond_pos (r : Response) (s : State) :
    (respond r s).pos = s.pos := rfl
@[simp] theorem respond_len (r : Response) (s : State) :
    (respond r s).len = s.len := rfl
@[simp] theorem respond_cap (r : Response) (s : State) :
    (respond r s).cap = s.cap := rfl
@[simp] theorem respond_consumed (r : Response) (s : State) :
    (respond r s).consumed = s.consumed := rfl
@[simp] theorem respond_skipped (r : Response) (s : State) :
    (respond r s).skipped = s.skipped := rfl
@[simp] theorem respond_nal (r : Response) (s : State) :
    (respond r s).nal = s.nal := rfl
@[simp] theorem respond_adts (r : Response) (s : State) :
    (respond r s).adts = s.adts := rfl
@[simp] theorem respond_flvh (r : Response) (s : State) :
    (respond r s).flvh = s.flvh := rfl
@[simp] theorem respond_flvt (r : Response) (s : State) :
    (respond r s).flvt = s.flvt := rfl
@[simp] theorem respond_amf (r : Response) (s : State) :
    (respond r s).amf = s.amf := rfl
@[simp] theorem respond_metaRows (r : Response) (s : State) :
    (respond r s).metaRows = s.metaRows := rfl
@[simp] theorem respond_flvPrev (r : Response) (s : State) :
    (respond r s).flvPrev = s.flvPrev := rfl
@[simp] theorem respond_rtp (r : Response) (s : State) :
    (respond r s).rtp = s.rtp := rfl
@[simp] theorem respond_ts (r : Response) (s : State) :
    (respond r s).ts = s.ts := rfl
@[simp] theorem respond_tsIter (r : Response) (s : State) :
    (respond r s).tsIter = s.tsIter := rfl
@[simp] theorem respond_ibuf (r : Response) (s : State) :
    (respond r s).ibuf = s.ibuf := rfl
@[simp] theorem respond_inputs (r : Response) (s : State) :
    (respond r s).inputs = s.inputs := rfl
@[simp] theorem respond_response (r : Response) (s : State) :
    (respond r s).response = r := rfl
@[simp] theorem respond_freeCount (r : Response) (s : State) :
    (respond r s).freeCount = s.freeCount := rfl

/-! ### respondFree (70_reset_and_hazards R262): only the answer and the counter change -/

@[simp] theorem respondFree_ctrl (s : State) :
    (respondFree s).ctrl = s.ctrl := rfl
@[simp] theorem respondFree_status (s : State) :
    (respondFree s).status = s.status := rfl
@[simp] theorem respondFree_arg (s : State) :
    (respondFree s).arg = s.arg := rfl
@[simp] theorem respondFree_pos (s : State) :
    (respondFree s).pos = s.pos := rfl
@[simp] theorem respondFree_len (s : State) :
    (respondFree s).len = s.len := rfl
@[simp] theorem respondFree_cap (s : State) :
    (respondFree s).cap = s.cap := rfl
@[simp] theorem respondFree_consumed (s : State) :
    (respondFree s).consumed = s.consumed := rfl
@[simp] theorem respondFree_skipped (s : State) :
    (respondFree s).skipped = s.skipped := rfl
@[simp] theorem respondFree_nal (s : State) :
    (respondFree s).nal = s.nal := rfl
@[simp] theorem respondFree_adts (s : State) :
    (respondFree s).adts = s.adts := rfl
@[simp] theorem respondFree_flvh (s : State) :
    (respondFree s).flvh = s.flvh := rfl
@[simp] theorem respondFree_flvt (s : State) :
    (respondFree s).flvt = s.flvt := rfl
@[simp] theorem respondFree_amf (s : State) :
    (respondFree s).amf = s.amf := rfl
@[simp] theorem respondFree_metaRows (s : State) :
    (respondFree s).metaRows = s.metaRows := rfl
@[simp] theorem respondFree_flvPrev (s : State) :
    (respondFree s).flvPrev = s.flvPrev := rfl
@[simp] theorem respondFree_rtp (s : State) :
    (respondFree s).rtp = s.rtp := rfl
@[simp] theorem respondFree_ts (s : State) :
    (respondFree s).ts = s.ts := rfl
@[simp] theorem respondFree_tsIter (s : State) :
    (respondFree s).tsIter = s.tsIter := rfl
@[simp] theorem respondFree_ibuf (s : State) :
    (respondFree s).ibuf = s.ibuf := rfl
@[simp] theorem respondFree_inputs (s : State) :
    (respondFree s).inputs = s.inputs := rfl
@[simp] theorem respondFree_response (s : State) :
    (respondFree s).response = .readData (Config.freeRead s.freeCount) := rfl
@[simp] theorem respondFree_freeCount (s : State) :
    (respondFree s).freeCount = s.freeCount + 1 := rfl

/-! ### resetBlock (70_reset_and_hazards R250): every register at its reset value, CAP and the model's own fields kept -/

@[simp] theorem resetBlock_ctrl (s : State) :
    (resetBlock s).ctrl = Ctrl.zero := rfl
@[simp] theorem resetBlock_status (s : State) :
    (resetBlock s).status = Status.zero := rfl
@[simp] theorem resetBlock_arg (s : State) :
    (resetBlock s).arg = 0#32 := rfl
@[simp] theorem resetBlock_pos (s : State) :
    (resetBlock s).pos = 0#32 := rfl
@[simp] theorem resetBlock_len (s : State) :
    (resetBlock s).len = 0#32 := rfl
@[simp] theorem resetBlock_cap (s : State) :
    (resetBlock s).cap = s.cap := rfl
@[simp] theorem resetBlock_consumed (s : State) :
    (resetBlock s).consumed = 0#32 := rfl
@[simp] theorem resetBlock_skipped (s : State) :
    (resetBlock s).skipped = 0#32 := rfl
@[simp] theorem resetBlock_nal (s : State) :
    (resetBlock s).nal = GNal.zero := rfl
@[simp] theorem resetBlock_adts (s : State) :
    (resetBlock s).adts = GAdts.zero := rfl
@[simp] theorem resetBlock_flvh (s : State) :
    (resetBlock s).flvh = GFlvh.zero := rfl
@[simp] theorem resetBlock_flvt (s : State) :
    (resetBlock s).flvt = GFlvt.zero := rfl
@[simp] theorem resetBlock_amf (s : State) :
    (resetBlock s).amf = GAmf.zero := rfl
@[simp] theorem resetBlock_metaRows (s : State) :
    (resetBlock s).metaRows = metaRowsZero := rfl
@[simp] theorem resetBlock_flvPrev (s : State) :
    (resetBlock s).flvPrev = FlvPrev.zero := rfl
@[simp] theorem resetBlock_rtp (s : State) :
    (resetBlock s).rtp = GRtp.zero := rfl
@[simp] theorem resetBlock_ts (s : State) :
    (resetBlock s).ts = GTs.zero := rfl
@[simp] theorem resetBlock_tsIter (s : State) :
    (resetBlock s).tsIter = TsIter.zero := rfl
@[simp] theorem resetBlock_ibuf (s : State) :
    (resetBlock s).ibuf = ([] : Memory) := rfl
@[simp] theorem resetBlock_inputs (s : State) :
    (resetBlock s).inputs = s.inputs := rfl
@[simp] theorem resetBlock_response (s : State) :
    (resetBlock s).response = s.response := rfl
@[simp] theorem resetBlock_freeCount (s : State) :
    (resetBlock s).freeCount = s.freeCount := rfl

/-! ### startCommand (40_cursor R110, R112) -/

@[simp] theorem startCommand_ctrl (i : Instr) (s : State) :
    (startCommand i s).ctrl = s.ctrl := by cases i <;> rfl
@[simp] theorem startCommand_status (i : Instr) (s : State) :
    (startCommand i s).status = s.status := by cases i <;> rfl
@[simp] theorem startCommand_arg (i : Instr) (s : State) :
    (startCommand i s).arg = s.arg := by cases i <;> rfl
@[simp] theorem startCommand_pos (i : Instr) (s : State) :
    (startCommand i s).pos = s.pos := by cases i <;> rfl
@[simp] theorem startCommand_len (i : Instr) (s : State) :
    (startCommand i s).len = s.len := by cases i <;> rfl
@[simp] theorem startCommand_cap (i : Instr) (s : State) :
    (startCommand i s).cap = s.cap := by cases i <;> rfl
@[simp] theorem startCommand_consumed (i : Instr) (s : State) :
    (startCommand i s).consumed = 0#32 := by cases i <;> rfl
@[simp] theorem startCommand_skipped (i : Instr) (s : State) :
    (startCommand i s).skipped = 0#32 := by cases i <;> rfl
@[simp] theorem startCommand_flvPrev (i : Instr) (s : State) :
    (startCommand i s).flvPrev = s.flvPrev := by cases i <;> rfl
@[simp] theorem startCommand_tsIter (i : Instr) (s : State) :
    (startCommand i s).tsIter = s.tsIter := by cases i <;> rfl
@[simp] theorem startCommand_ibuf (i : Instr) (s : State) :
    (startCommand i s).ibuf = s.ibuf := by cases i <;> rfl
@[simp] theorem startCommand_inputs (i : Instr) (s : State) :
    (startCommand i s).inputs = s.inputs := by cases i <;> rfl
@[simp] theorem startCommand_response (i : Instr) (s : State) :
    (startCommand i s).response = s.response := by cases i <;> rfl
@[simp] theorem startCommand_freeCount (i : Instr) (s : State) :
    (startCommand i s).freeCount = s.freeCount := by cases i <;> rfl

@[simp] theorem startCommand_nal_cleared (s : State) :
    (startCommand .nalNext s).nal = GNal.zero := rfl
theorem startCommand_nal_kept (i : Instr) (s : State) (h : i ≠ .nalNext) :
    (startCommand i s).nal = s.nal := by cases i <;> first | rfl | exact absurd rfl h
@[simp] theorem startCommand_adts_cleared (s : State) :
    (startCommand .adtsNext s).adts = GAdts.zero := rfl
theorem startCommand_adts_kept (i : Instr) (s : State) (h : i ≠ .adtsNext) :
    (startCommand i s).adts = s.adts := by cases i <;> first | rfl | exact absurd rfl h
@[simp] theorem startCommand_flvh_cleared (s : State) :
    (startCommand .flvHeader s).flvh = GFlvh.zero := rfl
theorem startCommand_flvh_kept (i : Instr) (s : State) (h : i ≠ .flvHeader) :
    (startCommand i s).flvh = s.flvh := by cases i <;> first | rfl | exact absurd rfl h
@[simp] theorem startCommand_flvt_cleared (s : State) :
    (startCommand .flvNextTag s).flvt = GFlvt.zero := rfl
theorem startCommand_flvt_kept (i : Instr) (s : State) (h : i ≠ .flvNextTag) :
    (startCommand i s).flvt = s.flvt := by cases i <;> first | rfl | exact absurd rfl h
@[simp] theorem startCommand_amf_cleared (s : State) :
    (startCommand .flvNextTag s).amf = GAmf.zero := rfl
theorem startCommand_amf_kept (i : Instr) (s : State) (h : i ≠ .flvNextTag) :
    (startCommand i s).amf = s.amf := by cases i <;> first | rfl | exact absurd rfl h
@[simp] theorem startCommand_metaRows_cleared (s : State) :
    (startCommand .flvNextTag s).metaRows = metaRowsZero := rfl
theorem startCommand_metaRows_kept (i : Instr) (s : State) (h : i ≠ .flvNextTag) :
    (startCommand i s).metaRows = s.metaRows := by cases i <;> first | rfl | exact absurd rfl h
@[simp] theorem startCommand_rtp_cleared (s : State) :
    (startCommand .rtpParse s).rtp = GRtp.zero := rfl
theorem startCommand_rtp_kept (i : Instr) (s : State) (h : i ≠ .rtpParse) :
    (startCommand i s).rtp = s.rtp := by cases i <;> first | rfl | exact absurd rfl h
@[simp] theorem startCommand_ts_cleared (s : State) :
    (startCommand .tsNext s).ts = GTs.zero ∧ (startCommand .rtpParse s).ts = GTs.zero := ⟨rfl, rfl⟩
theorem startCommand_ts_kept (i : Instr) (s : State) (h : i ≠ .tsNext) (h' : i ≠ .rtpParse) :
    (startCommand i s).ts = s.ts := by cases i <;> first | rfl | exact absurd rfl h | exact absurd rfl h'

/-! ### STATUS (10_state R23) -/

@[simp] theorem status_raise_busy (st : Status) (c : ResultCode) :
    (st.raise c).busy = false := rfl
@[simp] theorem status_raise_done (st : Status) (c : ResultCode) :
    (st.raise c).done = true := rfl
@[simp] theorem status_raise_overflow (st : Status) (c : ResultCode) :
    (st.raise c).overflow = st.overflow := rfl
@[simp] theorem status_raise_busyWrite (st : Status) (c : ResultCode) :
    (st.raise c).busyWrite = st.busyWrite := rfl
@[simp] theorem status_raise_code (st : Status) (c : ResultCode) :
    (st.raise c).code = c := rfl
@[simp] theorem status_raise_lastOp (st : Status) (c : ResultCode) :
    (st.raise c).lastOp = st.lastOp := rfl
@[simp] theorem status_accept_busy (st : Status) (op : Byte) :
    (st.accept op).busy = true := rfl
@[simp] theorem status_accept_done (st : Status) (op : Byte) :
    (st.accept op).done = false := rfl
@[simp] theorem status_accept_overflow (st : Status) (op : Byte) :
    (st.accept op).overflow = st.overflow := rfl
@[simp] theorem status_accept_busyWrite (st : Status) (op : Byte) :
    (st.accept op).busyWrite = st.busyWrite := rfl
@[simp] theorem status_accept_code (st : Status) (op : Byte) :
    (st.accept op).code = st.code := rfl
@[simp] theorem status_accept_lastOp (st : Status) (op : Byte) :
    (st.accept op).lastOp = op := rfl
@[simp] theorem status_writeOneToClear_busy (st : Status) (v : Word) :
    (st.writeOneToClear v).busy = st.busy := rfl
@[simp] theorem status_writeOneToClear_done (st : Status) (v : Word) :
    (st.writeOneToClear v).done = (st.done && !v.getLsbD 1) := rfl
@[simp] theorem status_writeOneToClear_overflow (st : Status) (v : Word) :
    (st.writeOneToClear v).overflow = (st.overflow && !v.getLsbD 2) := rfl
@[simp] theorem status_writeOneToClear_busyWrite (st : Status) (v : Word) :
    (st.writeOneToClear v).busyWrite = (st.busyWrite && !v.getLsbD 3) := rfl
@[simp] theorem status_writeOneToClear_code (st : Status) (v : Word) :
    (st.writeOneToClear v).code = st.code := rfl
@[simp] theorem status_writeOneToClear_lastOp (st : Status) (v : Word) :
    (st.writeOneToClear v).lastOp = st.lastOp := rfl

/-- The values a command latches are the same before and after its start (40_cursor R110). -/
@[simp] theorem startCommand_latch (i : Instr) (s : State) : (startCommand i s).latch = s.latch := by
  cases i <;> rfl

end Sys2Proof.Machine
end

