-- ==== Sys2Proof/Laws/Ops.lean ====
section
/-! SUPPORT. For each shared operation, what it can do, said once: IBUF and its canonical form, the bounded
search, big-endian reads, the shortfall, the AMF helpers and the host's accesses. -/

namespace Sys2Proof.Machine

/-! ## IBUF -/

@[simp] theorem Memory.read_nil (i : Nat) : Memory.read [] i = Memory.unlisted := rfl

theorem Memory.wf_nil : Memory.wf [] := by simp [Memory.wf]

theorem Memory.below_nil (n : Nat) : Memory.below [] n := by simp [Memory.below]

/-- An index that no entry lists reads as an unlisted one. -/
theorem Memory.read_of_forall_ne {m : Memory} {i : Nat} (h : ∀ c ∈ m, c.1 ≠ i) :
    Memory.read m i = Memory.unlisted := by
  induction m with
  | nil => rfl
  | cons c m ih =>
    have hc : i ≠ c.1 := fun e => h c (by simp) e.symm
    simp only [Memory.read, if_neg hc]
    exact ih fun d hd => h d (by simp [hd])

theorem Memory.read_of_below {m : Memory} {n i : Nat} (h : Memory.below m n) (hi : n ≤ i) :
    Memory.read m i = Memory.unlisted :=
  Memory.read_of_forall_ne fun c hc => by have := h c hc; omega

/-- Every index a write leaves listed was listed before, or is the written one. -/
theorem Memory.mem_write {m : Memory} {i : Nat} {v : Byte} {c : Host.Cell}
    (h : c ∈ Memory.write m i v) : c ∈ m ∨ c = (i, v) := by
  induction m with
  | nil =>
    simp only [Memory.write] at h
    split at h <;> simp_all
  | cons d m ih =>
    obtain ⟨a, b⟩ := d
    simp only [Memory.write] at h
    split at h
    · split at h <;> (simp_all; try tauto)
    · split at h
      · split at h <;> (simp_all; try tauto)
      · rcases List.mem_cons.1 h with h | h
        · exact .inl (by simp [h])
        · rcases ih h with h | h
          · exact .inl (by simp [h])
          · exact .inr h

/-- A write keeps the canonical form. -/
theorem Memory.write_wf {m : Memory} (h : Memory.wf m) (i : Nat) (v : Byte) :
    Memory.wf (Memory.write m i v) := by
  obtain ⟨hp, hz⟩ := h
  refine ⟨?_, ?_⟩
  · induction m with
    | nil => simp only [Memory.write]; split <;> simp
    | cons c m ih =>
      obtain ⟨a, b⟩ := c
      have hp' := List.pairwise_cons.1 hp
      simp only [Memory.write]
      split
      · split
        · exact hp
        · refine List.pairwise_cons.2 ⟨fun d hd => ?_, hp⟩
          rcases List.mem_cons.1 hd with rfl | hd
          · assumption
          · have := hp'.1 d hd; simp only at this ⊢; omega
      · split
        · split
          · exact hp'.2
          · exact List.pairwise_cons.2 ⟨fun d hd => hp'.1 d hd, hp'.2⟩
        · refine List.pairwise_cons.2 ⟨fun d hd => ?_, ih hp'.2 fun c hc => hz c (by simp [hc])⟩
          rcases Memory.mem_write hd with hd | rfl
          · exact hp'.1 d hd
          · simp only; omega
  · induction m with
    | nil => simp only [Memory.write]; split <;> simp_all
    | cons c m ih =>
      obtain ⟨a, b⟩ := c
      have hp' := List.pairwise_cons.1 hp
      have hm : ∀ c ∈ m, c.2 ≠ Memory.unlisted := fun c hc => hz c (by simp [hc])
      have hb : b ≠ Memory.unlisted := hz (a, b) (by simp)
      simp only [Memory.write]
      intro d hd
      split at hd
      · split at hd
        · exact hz d hd
        · rcases List.mem_cons.1 hd with rfl | hd
          · assumption
          · exact hz d hd
      · split at hd
        · split at hd
          · exact hm d hd
          · rcases List.mem_cons.1 hd with rfl | hd
            · assumption
            · exact hm d hd
        · rcases List.mem_cons.1 hd with rfl | hd
          · exact hb
          · exact ih hp'.2 hm d hd

/-- The append index keeps every listed index below the new length. -/
theorem Memory.write_below {m : Memory} {n : Nat} (h : Memory.below m n) (v : Byte) :
    Memory.below (Memory.write m n v) (n + 1) := by
  intro c hc
  rcases Memory.mem_write hc with hc | rfl
  · have := h c hc; omega
  · simp

/-- Reading after a write: the written index reads the new byte, every other index reads as before. -/
theorem Memory.read_write {m : Memory} (h : Memory.wf m) (i j : Nat) (v : Byte) :
    Memory.read (Memory.write m i v) j = if j = i then v else Memory.read m j := by
  obtain ⟨hp, -⟩ := h
  induction m with
  | nil =>
    simp only [Memory.write]
    split <;> rename_i hv
    · split <;> simp_all
    · simp [Memory.read]
  | cons c m ih =>
    obtain ⟨a, b⟩ := c
    have hp' := List.pairwise_cons.1 hp
    have hgt : ∀ k, k ≤ a → Memory.read m k = Memory.unlisted := fun k hk =>
      Memory.read_of_forall_ne fun d hd => by have := hp'.1 d hd; simp only at this; omega
    simp only [Memory.write]
    split <;> rename_i hia
    · split <;> rename_i hv
      · split <;> rename_i hji
        · subst hji; simp only [Memory.read]; rw [if_neg (by omega), hgt _ (by omega), hv]
        · rfl
      · simp only [Memory.read]
    · split <;> rename_i hia'
      · subst hia'
        split <;> rename_i hv
        · split <;> rename_i hji
          · subst hji; rw [hgt _ (by omega), hv]
          · simp only [Memory.read, if_neg hji]
        · simp only [Memory.read]; split <;> rfl
      · simp only [Memory.read]
        rw [ih hp'.2]
        split <;> rename_i hja
        · rw [if_neg (by omega)]
        · rfl

/-- COMPACT keeps the canonical form. -/
theorem Memory.compacted_wf {m : Memory} (h : Memory.wf m) (p0 len : Nat) :
    Memory.wf (Memory.compacted m p0 len) := by
  refine ⟨?_, ?_⟩
  · refine List.Pairwise.filterMap _ (fun c d hcd c' hc' d' hd' => ?_) h.1
    split at hc'
    · split at hd'
      · simp only [Option.some.injEq] at hc' hd'
        subst hc' hd'; simp only; omega
      · simp at hd'
    · simp at hc'
  · intro c hc
    obtain ⟨d, hd, hdc⟩ := List.mem_filterMap.1 hc
    split at hdc
    · simp only [Option.some.injEq] at hdc; subst hdc; exact h.2 d hd
    · simp at hdc

theorem Memory.compacted_below (m : Memory) (p0 len : Nat) :
    Memory.below (Memory.compacted m p0 len) (len - p0) := by
  intro c hc
  obtain ⟨d, -, hdc⟩ := List.mem_filterMap.1 hc
  split at hdc
  · simp only [Option.some.injEq] at hdc; subst hdc; simp only; omega
  · simp at hdc

/-- After COMPACT, index k holds what index p0 + k held, below the new length (40_cursor R122). -/
theorem Memory.read_compacted (m : Memory) {p0 len k : Nat} (hk : k < len - p0) :
    Memory.read (Memory.compacted m p0 len) k = Memory.read m (p0 + k) := by
  induction m with
  | nil => rfl
  | cons c m ih =>
    obtain ⟨a, b⟩ := c
    simp only [Memory.compacted] at ih ⊢
    by_cases hc : p0 ≤ a ∧ a < len
    · simp only [List.filterMap_cons, if_pos hc, Memory.read, ih]
      by_cases hk' : k = a - p0
      · rw [if_pos hk', if_pos (by omega)]
      · rw [if_neg hk', if_neg (by omega)]
    · simp only [List.filterMap_cons, if_neg hc, Memory.read, ih]
      rw [if_neg (by omega)]

/-! ## Big-endian reads -/

theorem memRead_lt (m : Memory) (i n : Nat) : memRead m i n < 256 ^ n := by
  induction n generalizing i with
  | zero => simp [memRead]
  | succ n ih =>
    have h1 := ih (i + 1)
    have h2 : (Memory.read m i).toNat ≤ 255 := by have := (Memory.read m i).isLt; omega
    simp only [memRead, pow_succ]
    nlinarith

@[simp] theorem bytesAt_length (m : Memory) (i n : Nat) : (bytesAt m i n).length = n := by
  induction n generalizing i with
  | zero => rfl
  | succ n ih => simp [bytesAt, ih]

/-- A big-endian read depends on the bytes it names alone (20_memory R66). -/
theorem memRead_congr {m m' : Memory} {i n : Nat}
    (h : ∀ k, i ≤ k → k < i + n → Memory.read m k = Memory.read m' k) :
    memRead m i n = memRead m' i n := by
  induction n generalizing i with
  | zero => rfl
  | succ n ih =>
    simp only [memRead]
    rw [h i (by omega) (by omega), ih fun k h1 h2 => h k (by omega) (by omega)]

theorem bytesAt_congr {m m' : Memory} {i n : Nat}
    (h : ∀ k, i ≤ k → k < i + n → Memory.read m k = Memory.read m' k) :
    bytesAt m i n = bytesAt m' i n := by
  induction n generalizing i with
  | zero => rfl
  | succ n ih =>
    simp only [bytesAt]
    rw [h i (by omega) (by omega), ih fun k h1 h2 => h k (by omega) (by omega)]

/-! ## The bounded search -/

/-- The search finds the least index of its range that has an answer (00_scope R17). -/
theorem leastSome_eq_some {α : Type} (f : Nat → Option α) (fuel lo i : Nat) (a : α) :
    leastSome f fuel lo = some (i, a) ↔
      lo ≤ i ∧ i < lo + fuel ∧ f i = some a ∧ ∀ j, lo ≤ j → j < i → f j = none := by
  induction fuel generalizing lo with
  | zero => simp only [leastSome]; constructor <;> intro h <;> [simp at h; omega]
  | succ n ih =>
    simp only [leastSome]
    split
    · rename_i b hb
      constructor
      · intro h
        simp only [Option.some.injEq, Prod.mk.injEq] at h
        obtain ⟨rfl, rfl⟩ := h
        exact ⟨le_refl _, by omega, hb, fun j h1 h2 => by omega⟩
      · rintro ⟨h1, -, h3, h4⟩
        have : lo = i := by
          by_contra hne
          have := h4 lo (le_refl _) (by omega)
          simp_all
        subst this; simp_all
    · rename_i hb
      rw [ih]
      constructor
      · rintro ⟨h1, h2, h3, h4⟩
        refine ⟨by omega, by omega, h3, fun j h5 h6 => ?_⟩
        by_cases hj : j = lo
        · subst hj; exact hb
        · exact h4 j (by omega) h6
      · rintro ⟨h1, h2, h3, h4⟩
        have : i ≠ lo := by rintro rfl; simp_all
        exact ⟨by omega, by omega, h3, fun j h5 h6 => h4 j (by omega) h6⟩

/-- The search fails when no index of its range has an answer. -/
theorem leastSome_eq_none {α : Type} (f : Nat → Option α) (fuel lo : Nat) :
    leastSome f fuel lo = none ↔ ∀ j, lo ≤ j → j < lo + fuel → f j = none := by
  induction fuel generalizing lo with
  | zero => simp only [leastSome, true_iff]; intro j h1 h2; omega
  | succ n ih =>
    simp only [leastSome]
    split
    · rename_i b hb
      simp only [reduceCtorEq, false_iff, not_forall]
      exact ⟨lo, le_refl _, by omega, by simp [hb]⟩
    · rename_i hb
      rw [ih]
      constructor
      · intro h j h1 h2
        by_cases hj : j = lo
        · subst hj; exact hb
        · exact h j (by omega) (by omega)
      · exact fun h j h1 h2 => h j (by omega) (by omega)

/-! ## Shortfall -/

/-- The three codes of a shortfall (40_cursor R111). -/
theorem shortfallCode_cases (l : Latch) (need : Nat) :
    (l.eos = true ∧ shortfallCode l need = .truncated) ∨
      (l.eos = false ∧ l.cap < need ∧ shortfallCode l need = .capacityExceeded) ∨
        (l.eos = false ∧ need ≤ l.cap ∧ shortfallCode l need = .needMoreData) := by
  unfold shortfallCode
  cases l.eos <;> by_cases h : l.cap < need <;> (simp [h]; try omega)

/-! ## AMF helpers -/

@[simp] theorem amfStop_fst (c : ResultCode) (cur : AmfCur) : (amfStop c cur).1 = c := rfl
@[simp] theorem amfStop_k (c : ResultCode) (cur : AmfCur) : (amfStop c cur).2.k = cur.k := rfl
@[simp] theorem amfStop_rows (c : ResultCode) (cur : AmfCur) : (amfStop c cur).2.rows = cur.rows := rfl
@[simp] theorem amfSkip_k (cur : AmfCur) (m : Nat) : (cur.skip m).k = cur.k + m := rfl
@[simp] theorem amfSkip_amf (cur : AmfCur) (m : Nat) : (cur.skip m).amf = cur.amf := rfl
@[simp] theorem amfSkip_rows (cur : AmfCur) (m : Nat) : (cur.skip m).rows = cur.rows := rfl

/-- `need(m)` goes on unchanged exactly when m more bytes exist (43_flv R190). -/
theorem amfNeed_ok_iff (n m : Nat) (cur c : AmfCur) :
    amfNeed n m cur = .ok c ↔ cur.k + m ≤ n ∧ c = cur := by
  unfold amfNeed
  by_cases h : n < cur.k + m
  · simp [h]
  · simp only [h, if_false, Except.ok.injEq]; constructor <;> intro h' <;> [exact ⟨by omega, h'.symm⟩; exact h'.2.symm]

theorem amfNeed_error_iff (n m : Nat) (cur : AmfCur) (e : ResultCode × AmfCur) :
    amfNeed n m cur = .error e ↔ n < cur.k + m ∧ e = amfStop .malformedHeader cur := by
  unfold amfNeed
  by_cases h : n < cur.k + m
  · simp only [h, if_true, Except.error.injEq, true_and]; exact eq_comm
  · simp [h]

/-- `store` leaves the offset and G_AMF (43_flv R191). -/
@[simp] theorem amfStore_k (row : Option (Fin 12)) (t : Byte) (hi lo : Word) (cur : AmfCur) :
    (amfStore row t hi lo cur).k = cur.k := by cases row <;> rfl
@[simp] theorem amfStore_amf (row : Option (Fin 12)) (t : Byte) (hi lo : Word) (cur : AmfCur) :
    (amfStore row t hi lo cur).amf = cur.amf := by cases row <;> rfl

/-! ## The host's accesses -/

/-- A register read changes the answer and the model's counter, nothing of the block (10_state R42 (d)). -/
theorem hostReadReg_block (r : Reg) (s : State) :
    ∃ v n, hostReadReg r s = { s with response := .readData v, freeCount := n } := by
  unfold hostReadReg
  split
  · exact ⟨_, _, rfl⟩
  · exact ⟨_, s.freeCount, rfl⟩

theorem hostReadWindow_block (i : Nat) (s : State) :
    ∃ v n, hostReadWindow i s = { s with response := .readData v, freeCount := n } := by
  unfold hostReadWindow
  split
  · exact ⟨_, _, rfl⟩
  · exact ⟨_, s.freeCount, rfl⟩

/-- What a register write can do (70_reset_and_hazards R261): a STATUS write, a refusal while BUSY, an effect
while not BUSY, or nothing. -/
theorem hostWriteReg_cases (r : Reg) (v : Word) (s : State) :
    (r = .status ∧ hostWriteReg r v s = { s with status := s.status.writeOneToClear v }) ∨
      (r ≠ .status ∧ regWritable r = true ∧ s.status.busy = true ∧
        hostWriteReg r v s = { s with status := { s.status with busyWrite := true } }) ∨
      (r ≠ .status ∧ regWritable r = true ∧ s.status.busy = false ∧
        hostWriteReg r v s = writeReg r v s) ∨
      (r ≠ .status ∧ regWritable r = false ∧ hostWriteReg r v s = s) := by
  unfold hostWriteReg
  by_cases h1 : r = .status
  · exact .inl ⟨h1, by simp [h1]⟩
  · by_cases h2 : regWritable r = true
    · cases h3 : s.status.busy
      · exact .inr (.inr (.inl ⟨h1, h2, rfl, by simp [h1, h2]⟩))
      · exact .inr (.inl ⟨h1, h2, rfl, by simp [h1, h2]⟩)
    · exact .inr (.inr (.inr ⟨h1, by simpa using h2, by simp [h1, h2]⟩))

/-- The bus answers a next state or a bus error, never a refusal (60_exceptions R238). -/
theorem hostAccess_cases (a : BusAccess) (s : State) :
    (∃ t, hostAccess a s = .next t) ∨ ∃ why, hostAccess a s = .fault (.busError why) := by
  unfold hostAccess
  split
  · exact .inr ⟨_, rfl⟩
  · split
    · unfold hostRead
      split
      · exact .inl ⟨_, rfl⟩
      · exact .inl ⟨_, rfl⟩
      · exact .inr ⟨_, rfl⟩
    · unfold hostWrite
      split
      · exact .inl ⟨_, rfl⟩
      · exact .inr ⟨_, rfl⟩
      · exact .inr ⟨_, rfl⟩

/-! ## The engine -/

theorem commandInProgress_of_busy {s : State} (h : s.status.busy = true) :
    s.commandInProgress = some (s.status.lastOp.setWidth 32) := by simp [State.commandInProgress, h]

theorem commandInProgress_of_idle {s : State} (h : s.status.busy = false) :
    s.commandInProgress = none := by simp [State.commandInProgress, h]

end Sys2Proof.Machine
end

