-- ==== Sys2Proof/Laws/PerInstr.lean ====
section
/-! SUPPORT. The per-instruction family of LAWS.json: every command word is of format C (30_encoding R80). -/

namespace Sys2Proof.Laws.EncodesInFormatC

/-- The command is well-formed, its word has bits 31:8 zero and its opcode in bits 7:0, and the opcode is
not reserved (30_encoding R80, R82). -/
def Statement (i : Instr) : Prop :=
  i.wf = true ∧ (encode i).extractLsb 31 8 = 0#24 ∧ (encode i).extractLsb 7 0 = i.opcode ∧
    opcodeReserved i.opcode = false

theorem nalNext : Statement .nalNext := by unfold Statement; decide
theorem adtsNext : Statement .adtsNext := by unfold Statement; decide
theorem flvHeader : Statement .flvHeader := by unfold Statement; decide
theorem flvNextTag : Statement .flvNextTag := by unfold Statement; decide
theorem rtpParse : Statement .rtpParse := by unfold Statement; decide
theorem tsNext : Statement .tsNext := by unfold Statement; decide
theorem seek : Statement .seek := by unfold Statement; decide
theorem advance : Statement .advance := by unfold Statement; decide
theorem compact : Statement .compact := by unfold Statement; decide
theorem softReset : Statement .softReset := by unfold Statement; decide

end Sys2Proof.Laws.EncodesInFormatC
end

