-- ==== Sys2Proof/Tests/Slice0.lean ====
section
/-! SUPPORT. The model's own tests: decoding of words written out from the spec, well-formedness refusals, and
vectors of spec/95_test_vectors.md, each named; and for every statement with hypotheses, states and operands that meet
them, clause by clause. -/

namespace Sys2Proof.Tests

open Sys2Proof.Machine

/-! ## Helpers -/

/-- The memory that holds the bytes from index `i` on. -/
def memOf (i : Nat) : List Byte → Memory
  | [] => []
  | b :: bs => if b = 0#8 then memOf (i + 1) bs else (i, b) :: memOf (i + 1) bs

/-- The start state of a vector (95_test_vectors section 0): bytes from index 0, POS and EOS as given. -/
def vec (bytes : List Byte) (pos : Nat) (eos : Bool) : State :=
  { State.reset with
    ibuf := memOf 0 bytes
    len := Word.ofN bytes.length
    pos := Word.ofN pos
    ctrl := ⟨eos, false⟩ }

/-- The next state of an outcome, or the reset state where there is none. -/
def after : Host.Outcome State Fault Refusal → State
  | .next s => s
  | .fault _ | .refused _ => State.reset

/-- The state after command `i` is accepted and run (10_state R24, 60_exceptions R233). -/
def run (i : Instr) (s : State) : State := after (issue i s)

def bytes (l : List Nat) : List Byte := l.map (BitVec.ofNat 8)

/-- What a host program's run of `n` steps leaves. -/
def runSteps (n : Nat) (s : State) : State := after (Sys2Proof.core.run n s)

/-! ## Decoding: words written out from 30_encoding R80, R81 -/

theorem test_decode_nalNext : decode 0b00000000_00000000_00000000_00000001#32 = .ok .nalNext := by decide
theorem test_decode_adtsNext : decode 0b00000000_00000000_00000000_00000010#32 = .ok .adtsNext := by decide
theorem test_decode_flvHeader : decode 0b00000000_00000000_00000000_00000011#32 = .ok .flvHeader := by decide
theorem test_decode_flvNextTag : decode 0b00000000_00000000_00000000_00000100#32 = .ok .flvNextTag := by decide
theorem test_decode_rtpParse : decode 0b00000000_00000000_00000000_00000101#32 = .ok .rtpParse := by decide
theorem test_decode_tsNext : decode 0b00000000_00000000_00000000_00000110#32 = .ok .tsNext := by decide
theorem test_decode_seek : decode 0b00000000_00000000_00000000_00010000#32 = .ok .seek := by decide
theorem test_decode_advance : decode 0b00000000_00000000_00000000_00010001#32 = .ok .advance := by decide
theorem test_decode_compact : decode 0b00000000_00000000_00000000_00010010#32 = .ok .compact := by decide
theorem test_decode_softReset : decode 0b00000000_00000000_00000000_00011111#32 = .ok .softReset := by decide

/-- Bits 31:8 are ignored (30_encoding R80; V55d). -/
theorem test_decode_ignores_upper_bits : decode 0x00000101#32 = .ok .nalNext := by decide
/-- Reserved opcodes are rejected by name (30_encoding R82). -/
theorem test_decode_reserved :
    decode 0x00000000#32 = .error (.reservedOpcode 0x00#8) ∧
      decode 0x00000007#32 = .error (.reservedOpcode 0x07#8) ∧
      decode 0xABCDEFFF#32 = .error (.reservedOpcode 0xFF#8) := by decide
/-- No two rows of the opcode table match one word. -/
theorem test_rows_disjoint :
    opcodeTable.Pairwise fun r r' => r.pattern &&& r'.mask ≠ r'.pattern &&& r.mask := by decide
theorem test_decodeTableWord : decodeTableWord 8 0x1F = some .softReset ∧ decodeTableWord 32 0x1F = some .softReset := by
  decide

/-! ## Well-formedness: an ill-formed term for each check -/

theorem test_wf_refuses_reserved_opcode : commandWordWf 0x00000013#32 = false := by decide
theorem test_wf_refuses_narrow_access : (BusAccess.read .half 0x008#32).isWord = false := by decide
theorem test_wf_refuses_misaligned_access : (BusAccess.read .word 0x002#32).isAligned = false := by decide
theorem test_wf_refuses_ill_formed_access : (BusAccess.write .byte 0x002#32 0#32).wf = false := by decide
theorem test_wf_refuses_operand_not_taken : (HostLine.cmd .nalNext (some 5#32)).wf = false := by decide
theorem test_wf_refuses_missing_operand : (HostLine.cmd .seek none).wf = false := by decide
theorem test_wf_refuses_empty_push : (HostLine.push []).wf = false := by decide

/-! ## Commands -/

/-- V1 step 1 (MM section 8). -/
theorem test_nal_V1_first :
    let t := run .nalNext (vec (bytes [0, 0, 1, 0x67, 0xAA, 0, 0, 0, 1, 0x68, 0xBB]) 0 true)
    readReg t .nalInfo = 0x76B#32 ∧ t.nal.payOff = 3#32 ∧ t.nal.payLen = 2#32 ∧ t.pos = 5#32 ∧
      readReg t .status = 0x00010002#32 := by decide
/-- V6b: a 4-byte code at its first byte, FORBIDDEN reported. -/
theorem test_nal_V6b :
    let t := run .nalNext (vec (bytes [0, 0, 1, 0xAA, 0, 0, 0, 0, 1, 0xBB]) 5 true)
    readReg t .nalInfo = 0x1B3C#32 ∧ t.nal.scOff = 5#32 ∧ t.nal.payOff = 9#32 ∧ t.consumed = 5#32 := by decide

/-- V13: a 9-byte header with its two extra bytes. -/
theorem test_adts_V13 :
    let t := run .adtsNext (vec (bytes [0xFF, 0xF0, 0x50, 0x80, 0x01, 0x7F, 0xFC, 0x12, 0x34, 0xAA, 0xBB]) 0 false)
    readReg t .adtsHdr = 0x1110#32 ∧ readReg t .adtsLen = 0x97FF000B#32 ∧ t.adts.crc = 0x1234#16 ∧
      t.adts.payOff = 9#32 ∧ t.pos = 11#32 := by decide
/-- V16c: the frame starts at p0; every field reported raw. -/
theorem test_adts_V16c :
    let t := run .adtsNext (vec (bytes [0xFF, 0xFF, 0xF1, 0x50, 0x80, 0x01, 0x3F]) 0 true)
    t.status.code = .truncated ∧ readReg t .adtsHdr = 0x000CAB3F#32 ∧ readReg t .adtsLen = 0x704F0400#32 ∧
      t.pos = 0#32 := by decide

/-- V31a. -/
theorem test_flvHeader_V31a :
    let t := run .flvHeader (vec (bytes [0x46, 0x4C, 0x56, 1, 5, 0, 0, 0, 9]) 0 false)
    readReg t .flvHdr = 0x501#32 ∧ t.flvh.dataOffset = 9#32 ∧ t.pos = 9#32 ∧ t.status.code = .ok := by decide
/-- V31e: the header is stored before the shortfall of data_offset. -/
theorem test_flvHeader_V31e :
    let t := run .flvHeader (vec (bytes [0x46, 0x4C, 0x56, 1, 5, 0, 0, 0, 0x20]) 0 false)
    t.status.code = .needMoreData ∧ t.flvh.dataOffset = 32#32 ∧ t.pos = 0#32 := by decide

/-- V39: a PreviousTagSize mismatch is informational. -/
theorem test_flvTag_V39 :
    let s := vec (bytes [0, 0, 0, 0x0E, 8, 0, 0, 1, 0, 0, 0, 0, 0, 0, 0, 0x2F]) 0 false
    let t := run .flvNextTag { s with flvPrev := ⟨true, 2#24⟩ }
    readReg t .flvTag = 0x3008#32 ∧ t.flvt.audio = 0x2F#8 ∧ t.flvt.esOff = 16#32 ∧ t.flvPrev.ds = 1#24 ∧
      t.status.code = .ok := by decide
/-- V44: an array count larger than the pairs present; the row stored before the stop stays. -/
theorem test_flvTag_V44 :
    let t := run .flvNextTag (vec (bytes [0, 0, 0, 0, 0x12, 0, 0, 31, 0, 0, 0, 0, 0, 0, 0,
      2, 0, 0x0A, 0x6F, 0x6E, 0x4D, 0x65, 0x74, 0x61, 0x44, 0x61, 0x74, 0x61, 8, 0, 0, 0, 2,
      0, 6, 0x73, 0x74, 0x65, 0x72, 0x65, 0x6F, 1, 1, 0, 0, 9]) 0 false)
    t.status.code = .unsupportedCodec ∧ readReg t .amfStatus = 0x91B#32 ∧ t.amf.stopOff = 30#32 ∧
      t.amf.pairs = 1#32 ∧ t.metaRows.get 9 = ⟨true, 1#8, 0#32, 1#32⟩ ∧ t.pos = 46#32 := by decide

/-- V23: RTP bit fields, and payload type 33 with the marker set. -/
theorem test_rtp_V23 :
    let s := vec (bytes [0xB5, 0xA1, 0xFF, 0xFE, 0x12, 0x34, 0x56, 0x78, 0xDE, 0xAD, 0xBE, 0xEF]) 0 false
    let t := run .rtpParse { s with arg := 12#32 }
    readReg t .rtpHdr = 0x0021015E#32 ∧ t.rtp.seq = 0xFFFE#16 ∧ t.rtp.ssrc = 0xDEADBEEF#32 ∧
      readReg t .tsIter = 1#32 ∧ t.tsIter.endOff = 12#32 := by decide
/-- V21: a datagram shorter than 12 bytes is consumed. -/
theorem test_rtp_V21 :
    let s := vec (bytes [0x80, 0x21, 0, 1, 0, 0, 0, 0x64]) 0 false
    let t := run .rtpParse { s with arg := 8#32 }
    t.status.code = .truncated ∧ t.consumed = 8#32 ∧ t.pos = 8#32 ∧ t.tsIter.active = false := by decide

/-- V25 step 2: every TS header bit set. -/
theorem test_ts_V25 :
    let s := vec (bytes (List.replicate 12 0 ++ [0x47, 0xBF, 0xFF, 0xFF] ++ List.replicate 184 0)) 200 false
    let t := run .tsNext { s with tsIter := ⟨true, 0#16, 12#32, 200#32⟩ }
    readReg t .tsHdr = 0x000FF547#32 ∧ t.ts.pid = 0x1FFF#13 ∧ t.ts.payOff = 16#32 ∧
      readReg t .tsIter = 0x00010001#32 ∧ t.tsIter.nextOff = 200#32 := by decide
/-- V26: no armed iterator. -/
theorem test_ts_V26 : readReg (run .tsNext State.reset) .status = 0x00060102#32 := by decide

/-- V50b and V50c. -/
theorem test_seek_V50 :
    let s := vec (bytes (List.replicate 11 0x11)) 5 false
    readReg (run .seek { s with arg := 12#32 }) .status = 0x00100A02#32 ∧
      (run .seek { s with arg := 11#32 }).pos = 11#32 := by decide
/-- V51b: an ADVANCE past LEN. -/
theorem test_advance_V51b :
    let s := vec (bytes (List.replicate 5 0x11)) 1 false
    let t := run .advance { s with arg := 5#32, consumed := 1#32 }
    t.status.code = .cmdError ∧ t.pos = 1#32 ∧ t.consumed = 0#32 := by decide
/-- V52. -/
theorem test_compact_V52 :
    let t := run .compact (vec (bytes [0x11, 0x22, 0x33, 0x44, 0x55]) 3 false)
    t.ibuf = [(0, 0x44#8), (1, 0x55#8)] ∧ t.len = 2#32 ∧ t.pos = 0#32 ∧ readWindow t 2 = 0#32 := by decide
/-- V54. -/
theorem test_softReset_V54 :
    let s := vec (bytes [1, 2, 3]) 2 true
    let t := run .softReset { s with status := { s.status with overflow := true }, arg := 7#32 }
    readReg t .status = 0x001F0002#32 ∧ t.ctrl = Ctrl.zero ∧ t.arg = 0#32 ∧ t.len = 0#32 ∧ t.cap = 65536#32 := by
  decide

/-! ## The bus -/

/-- V55a: opcode 0x00 is reserved, through the host's write and the engine's turn. -/
theorem test_reserved_V55a :
    runSteps 2 { State.reset with inputs := (HostLine.wr .cmd 0#32).expand } =
      { State.reset with
        response := .writeOk
        status := { Status.zero with done := true, code := .cmdError } } := by decide
/-- V63: while BUSY a DATA_IN write is refused and flagged. -/
theorem test_busyWrite_V63 :
    let s := acceptCommand (encode .nalNext) State.reset
    let t := runSteps 1 { s with inputs := (HostLine.push [0xAA#8]).expand }
    t.status.busyWrite = true ∧ t.len = 0#32 ∧ t.status.busy = true := by decide
/-- V62a, V62b, V62d: bus errors. -/
theorem test_busError_V62 :
    formError (.read .word 0x002#32) = some .misaligned ∧ busTarget 65536 0x02C = .unmapped ∧
      busTarget 65536 0x00100000 = .window 0 ∧ busTarget 64 0x00100100 = .unmapped := by decide
/-- V62i: CTRL keeps two bits. -/
theorem test_ctrl_V62i : readReg (writeReg .ctrl 0xFFFFFFFF#32 State.reset) .ctrl = 3#32 := by decide

/-! ## Witnesses: the hypotheses of each statement are met -/

/-- The invariant from its conditions, each of which can be decided. -/
theorem invOf {s : State}
    (cursor : 64 ≤ s.cap.toNat ∧ s.cap.toNat ≤ 16777216 ∧ s.pos.toNat ≤ s.len.toNat ∧
      s.len.toNat ≤ s.cap.toNat ∧ s.consumed.toNat ≤ s.pos.toNat)
    (mem : Memory.wf s.ibuf ∧ Memory.below s.ibuf s.len.toNat)
    (iter : (s.tsIter.active = true →
        s.tsIter.nextOff.toNat ≤ s.tsIter.endOff.toNat ∧ s.tsIter.endOff.toNat ≤ s.len.toNat) ∧
      (s.tsIter.active = false → s.tsIter = TsIter.zero))
    (groups : (s.status.busy = true → s.status.done = false) ∧
      (s.nal.scLen = 0#3 ∨ s.nal.scLen = 3#3 ∨ s.nal.scLen = 4#3) ∧
      (s.adts.hdrLen = 0#4 ∨ s.adts.hdrLen = 7#4 ∨ s.adts.hdrLen = 9#4) ∧
      (s.flvt.ptsMismatch = true → s.flvt.ptsChecked = true) ∧
      (s.amf.partialDecode = true → s.amf.decoded = true) ∧
      (s.ts.payLen = 0#32 ∨ s.ts.payLen = 184#32))
    (rows : ∀ i, ((s.metaRows.get i).present = false → s.metaRows.get i = MetaRow.zero) ∧
      (s.metaRows.get i).amfType.toNat ≤ 2) : s.Inv where
  cap_min := cursor.1
  cap_max := cursor.2.1
  pos_le_len := cursor.2.2.1
  len_le_cap := cursor.2.2.2.1
  iter_order := fun h => (iter.1 h).1
  iter_end := fun h => (iter.1 h).2
  mem_wf := mem.1
  mem_below := mem.2
  iter_idle := iter.2
  busy_not_done := groups.1
  consumed_le_pos := cursor.2.2.2.2
  scLen_legal := groups.2.1
  hdrLen_legal := groups.2.2.1
  mismatch_checked := groups.2.2.2.1
  partial_decoded := groups.2.2.2.2.1
  meta_absent := fun i => (rows i).1
  meta_type := fun i => (rows i).2
  tsPayLen_legal := groups.2.2.2.2.2

/-- An instance with the least BUF_CAP, some stream at its start, and the inputs `q` to come. -/
def small (bs : List Nat) (pos : Nat) (eos : Bool) (q : List Input) : State :=
  { State.resetWith 64#32 with
    ibuf := memOf 0 (bytes bs)
    len := Word.ofN bs.length
    pos := Word.ofN pos
    ctrl := ⟨eos, false⟩
    inputs := q }

/-- The same with a full buffer (LEN = BUF_CAP). -/
def full (q : List Input) : State := { small [] 0 false q with len := 64#32 }

/-- The same with command `i` in progress. -/
def busyWith (i : Instr) (q : List Input) : State := acceptCommand (encode i) (small [7, 8] 1 false q)

theorem witness_decode_inverts :
    Instr.wf .nalNext = true ∧ Instr.wf .softReset = true ∧ decode 0xFFFFFF1F#32 = .ok .softReset ∧
      (0xFFFFFF1F#32).setWidth 8 = (0x0000001F#32).setWidth 8 := by decide
theorem witness_opcode_or_reserved :
    opcodeReserved ((0x00000000#32).setWidth 8) = true ∧ opcodeReserved ((0x000000FF#32).setWidth 8) = true ∧
      opcodeReserved ((0x00000001#32).setWidth 8) = false ∧
      Instr.opcode .nalNext = (0x00000001#32).setWidth 8 := by decide
theorem witness_step_runs :
    (Running (busyWith .seek []) .seek ∧ EngineTurnNext (busyWith .seek [])) ∧
      (Running (busyWith .seek [.engine]) .seek ∧ EngineTurnNext (busyWith .seek [.engine])) ∧
      (Running (busyWith .seek [.wait]) .seek ∧ EngineTurnNext (busyWith .seek [.wait])) :=
  ⟨⟨⟨rfl, by decide⟩, .inl rfl⟩, ⟨⟨rfl, by decide⟩, .inr (.inl rfl)⟩, ⟨⟨rfl, by decide⟩, .inr (.inr ⟨rfl, rfl⟩)⟩⟩
theorem witness_command_line :
    (small [] 0 false []).status.busy = false ∧ Instr.takesOperand .seek = true ∧
      Instr.takesOperand .nalNext = false ∧ (busyWith .nalNext [.wait]).inputs = .wait :: [] ∧
      ∃ t, exec .nalNext (busyWith .nalNext [.wait]) = .next t :=
  ⟨rfl, rfl, rfl, rfl, _, rfl⟩
theorem witness_cmd_write :
    (small [] 0 false []).status.busy = false ∧ (busyWith .seek []).status.busy = true ∧
      Instr.opcode .seek = (0xABCDEF10#32).setWidth 8 := by decide
theorem witness_reserved_opcode :
    (small [] 0 false []).status.busy = false ∧ opcodeReserved ((0x00000000#32).setWidth 8) = true ∧
      opcodeReserved ((0xFFFFFFFF#32).setWidth 8) = true := by decide

theorem inv_busy : (busyWith .seek []).Inv := invOf (by decide) (by decide) (by decide) (by decide) (by decide)
theorem inv_full : (full []).Inv := invOf (by decide) (by decide) (by decide) (by decide) (by decide)
theorem inv_idle : (small [7, 8] 1 false []).Inv :=
  invOf (by decide) (by decide) (by decide) (by decide) (by decide)

/-- A DATA_IN write while BUSY, at LEN = BUF_CAP, and at LEN = BUF_CAP - 1; and a step that appends. -/
theorem witness_dataIn :
    ((busyWith .seek []).Inv ∧ (busyWith .seek []).status.busy = true) ∧
      ((full []).Inv ∧ (full []).status.busy = false ∧ (full []).len = (full []).cap) ∧
      ({ full [] with len := 63#32 }.Inv ∧ { full [] with len := 63#32 }.status.busy = false ∧
        { full [] with len := 63#32 }.len ≠ (full []).cap) ∧
      (small [7] 0 false [wrLine .dataIn 0#32]).Inv ∧
      ∃ t, step (small [7] 0 false [wrLine .dataIn 0#32]) = .next t ∧
        (small [7] 0 false [wrLine .dataIn 0#32]).len.toNat < t.len.toNat :=
  ⟨⟨inv_busy, rfl⟩, ⟨inv_full, rfl, rfl⟩,
    ⟨invOf (by decide) (by decide) (by decide) (by decide) (by decide), rfl, by decide⟩,
    invOf (by decide) (by decide) (by decide) (by decide) (by decide), _, rfl, by decide⟩

/-- The first and the last offset of the window, and a read-only register. -/
theorem witness_writes_while_busy :
    (busyWith .seek []).status.busy = true ∧
      Reg.pos ∉ [Reg.status, .ctrl, .arg, .cmd, .dataIn, .flvPrevValid, .flvPrevDs] ∧
      (0x00100000#32).toNat % 4 = 0 ∧ InWindow 64 (0x00100000#32).toNat ∧
      (0x001000FC#32).toNat % 4 = 0 ∧ InWindow 64 (0x001000FC#32).toNat ∧
      (busyWith .seek []).cap.toNat = 64 :=
  ⟨rfl, by decide, rfl, ⟨by decide, by decide⟩, rfl, ⟨by decide, by decide⟩, rfl⟩
theorem witness_reads_while_busy :
    (busyWith .seek []).Inv ∧ (busyWith .seek []).status.busy = true ∧ Reg.len ∉ [Reg.status, .id, .cap] ∧
      InWindow (busyWith .seek []).cap.toNat (0x001000FC#32).toNat :=
  ⟨inv_busy, rfl, by decide, by decide, by decide⟩
theorem witness_register_reads :
    (small [] 0 false []).status.busy = false ∧
      ∃ t, hostAccess (.read .word 0x018#32) (busyWith .seek []) = .next t := ⟨rfl, _, rfl⟩
/-- Index 0, the last valid byte, the first index at LEN, and the last of the window. -/
theorem witness_window :
    (small [7, 8] 1 false []).Inv ∧ (small [7, 8] 1 false []).status.busy = false ∧
      (busyWith .seek []).Inv ∧ (busyWith .seek []).status.busy = true ∧
      (∀ i ∈ [0, 1, 2, 63], i < (small [7, 8] 1 false []).cap.toNat ∧ i < (busyWith .seek []).cap.toNat) :=
  ⟨inv_idle, rfl, inv_busy, rfl, by decide⟩

theorem accessLegal_status : AccessLegal 64 (.read .word 0x008#32) :=
  ⟨rfl, rfl, .inl ⟨.status, rfl⟩, fun _ _ _ h => nomatch h⟩

/-- A legal access, and one illegal for each reason: narrow, misaligned, unmapped, a write to the window. -/
theorem witness_access_legal :
    AccessLegal 64 (.read .word 0x008#32) ∧ ¬ AccessLegal 64 (.read .half 0x008#32) ∧
      ¬ AccessLegal 64 (.read .word 0x00A#32) ∧
      ¬ AccessLegal 64 (.write .word 0x001000FC#32 1#32) ∧
      ∃ f, step (small [] 0 false [.access (.read .word 0x02C#32)]) = .fault f :=
  ⟨accessLegal_status, fun h => (nomatch h.1), fun h => (nomatch h.2.1),
    fun h => h.2.2.2 _ _ _ rfl ⟨by decide, by decide⟩, _, rfl⟩
theorem witness_hostSafe : HostSafe (small [] 0 false [.access (.read .word 0x008#32), .resetPin]) := by
  intro a h
  have : a = .read .word 0x008#32 := by simpa [small] using h
  exact this ▸ accessLegal_status
theorem witness_register_map : regAt 0x000 = some .id ∧ regAt 0x260 = some .tsEndOff := by decide
/-- The first row of the map and the last of META. -/
theorem witness_register_map_rows :
    (0x000, Reg.id, 0x44534231#32) ∈ registerMap (small [] 0 false []) ∧
      (0x1BC, Reg.metaReserved 11, 0#32) ∈ registerMap (small [] 0 false []) ∧
      (small [] 0 false []).status.busy = false := by decide
theorem witness_interrupt :
    (0x2#32).getLsbD 1 = true ∧ (∃ t, hostAccess (.write .word 0x008#32 0x2#32) (full []) = .next t) ∧
      (full []).status.busy = false ∧ (0x1#32).getLsbD 1 = false ∧
      ∃ t, hostAccess (.write .word 0x004#32 0x1#32) (full []) = .next t :=
  ⟨rfl, ⟨_, rfl⟩, rfl, rfl, _, rfl⟩
theorem witness_reset_input :
    (busyWith .seek [.resetPin]).inputs = .resetPin :: [] ∧ (busyWith .seek [.resetPin]).status.busy = true :=
  ⟨rfl, rfl⟩

/-- ARG = LEN and ARG = LEN + 1. -/
theorem witness_seek :
    { small [7, 8] 1 false [] with arg := 2#32 }.arg.toNat ≤ (small [7, 8] 1 false []).len.toNat ∧
      (small [7, 8] 1 false []).len.toNat < { small [7, 8] 1 false [] with arg := 3#32 }.arg.toNat := by decide
/-- ARG = avail and ARG = avail + 1. -/
theorem witness_advance :
    ({ small [7, 8] 1 false [] with arg := 1#32 }.Inv ∧
        { small [7, 8] 1 false [] with arg := 1#32 }.arg.toNat ≤ 2 - 1) ∧
      { small [7, 8] 1 false [] with arg := 2#32 }.Inv ∧
      2 - 1 < { small [7, 8] 1 false [] with arg := 2#32 }.arg.toNat :=
  ⟨⟨invOf (by decide) (by decide) (by decide) (by decide) (by decide), by decide⟩,
    invOf (by decide) (by decide) (by decide) (by decide) (by decide), by decide⟩
/-- POS strictly inside, at 0, and at LEN. -/
theorem witness_compact :
    ((small [7, 8] 1 false []).Inv ∧
        0 < (small [7, 8] 1 false []).len.toNat - (small [7, 8] 1 false []).pos.toNat) ∧
      ((small [7, 8] 0 false []).Inv ∧ (small [7, 8] 0 false []).pos = 0#32) ∧
      (small [7, 8] 2 false []).Inv :=
  ⟨⟨inv_idle, by decide⟩, ⟨invOf (by decide) (by decide) (by decide) (by decide) (by decide), rfl⟩,
    invOf (by decide) (by decide) (by decide) (by decide) (by decide)⟩

/-! ### NAL -/

/-- A 4-byte code and a 3-byte code, the last of which ends at L; a decided index; a byte still to come. -/
theorem witness_start_code :
    StartCodeAt (memOf 0 (bytes [0, 0, 0, 1])) 4 0 4 ∧ StartCodeAt (memOf 0 (bytes [0, 0, 0, 1])) 4 1 3 ∧
      startCode (memOf 0 (bytes [0, 0, 1])) 3 0 ≠ none ∧
      (0 + 2 < 3 ∧ 3 ≤ 0 + 3 ∧ 0 + 3 < 4 ∧ Memory.read (memOf 0 (bytes [0, 0, 0, 1])) 3 = 1#8) := by
  refine ⟨.inl ?_, .inr ?_, ?_, ?_⟩ <;> decide

theorem firstStartCode_at {m : Memory} {len lo i c : Nat} (hlo : lo ≤ i) (h : StartCodeAt m len i c)
    (hn : ∀ j, j < i → lo ≤ j → startCode m len j = none)
    (sc : ∀ j d, StartCodeAt m len j d → startCode m len j ≠ none) : FirstStartCodeAt m len lo i c :=
  ⟨hlo, h, fun j d hj hi hs => sc j d hs (hn j hi hj)⟩

theorem startCode_ne_none {m : Memory} {len j d : Nat} (h : StartCodeAt m len j d) : startCode m len j ≠ none := by
  rcases h with ⟨-, h, h0, h1, h2, h3⟩ | ⟨-, h, h0, h1, h2⟩
  · simp [startCode, memRead, h, h0, h1, h2, h3]
  · have : memRead m j 3 = 1 := by simp [memRead, h0, h1, h2]
    unfold startCode
    split
    · simp
    · simp [h, this]

theorem noStartCode_from {m : Memory} {len lo : Nat} (h : ∀ j, j < len → lo ≤ j → startCode m len j = none) :
    NoStartCodeFrom m len lo := by
  intro i c hi hs
  refine startCode_ne_none hs (h i ?_ hi)
  rcases hs with ⟨-, h, -⟩ | ⟨-, h, -⟩ <;> omega

def nalStream : List Nat := [0xAA, 0, 0, 1, 0x67, 0, 0, 0, 1]

theorem inv_nal (eos : Bool) : (small nalStream 0 eos []).Inv := by
  cases eos <;> exact invOf (by decide) (by decide) (by decide) (by decide) (by decide)
theorem inv_nal_at (eos : Bool) : (small nalStream 5 eos []).Inv := by
  cases eos <;> exact invOf (by decide) (by decide) (by decide) (by decide) (by decide)

/-- A unit ended by a code that ends at L, an empty final unit, no start code, and no end yet. -/
theorem witness_nal :
    ((small nalStream 0 false []).Inv ∧ FirstStartCodeAt (memOf 0 (bytes nalStream)) 9 0 1 3 ∧
        FirstStartCodeAt (memOf 0 (bytes nalStream)) 9 (1 + 3) 5 4) ∧
      ((small nalStream 5 true []).Inv ∧ FirstStartCodeAt (memOf 0 (bytes nalStream)) 9 5 5 4 ∧
        NoStartCodeFrom (memOf 0 (bytes nalStream)) 9 (5 + 4)) ∧
      ((full []).Inv ∧ NoStartCodeFrom (full []).ibuf 64 0) ∧
      (small nalStream 5 false []).Inv ∧ (small nalStream 5 false []).ctrl.eos = false ∧
      (small nalStream 5 false []).ibuf = memOf 0 (bytes nalStream) := by
  refine ⟨⟨inv_nal false, ?_, ?_⟩, ⟨inv_nal_at true, ?_, ?_⟩, ⟨inv_full, ?_⟩, inv_nal_at false, rfl, rfl⟩
  · exact firstStartCode_at (by decide) (.inr (by decide)) (by decide) fun _ _ => startCode_ne_none
  · exact firstStartCode_at (by decide) (.inl (by decide)) (by decide) fun _ _ => startCode_ne_none
  · exact firstStartCode_at (by decide) (.inl (by decide)) (by decide) fun _ _ => startCode_ne_none
  · exact noStartCode_from (by decide)
  · exact noStartCode_from (by decide)
theorem witness_nal_session :
    (small nalStream 5 true []).Inv ∧ (small nalStream 5 true []).ctrl.eos = true ∧
      ∃ c, StartCodeAt (small nalStream 5 true []).ibuf (small nalStream 5 true []).len.toNat
        (small nalStream 5 true []).pos.toNat c :=
  ⟨inv_nal_at true, rfl, 4, .inl (by decide)⟩
theorem witness_append :
    (small nalStream 0 false []).Inv ∧ (small nalStream 0 false []).ctrl.eos = false ∧
      (small nalStream 0 false []).len ≠ (small nalStream 0 false []).cap ∧
      ∃ t, exec .nalNext (small nalStream 0 false []) = .next t ∧ t.status.code = .ok :=
  ⟨inv_nal false, rfl, by decide, _, rfl, by decide⟩

/-! ### ADTS -/

/-- A header at POS 0 with frame_length `fl` (protection_absent = 1), then `n` payload bytes. -/
def adtsStream (fl n : Nat) : List Nat := [0xFF, 0xF1, 0x50, 0x80, fl / 8, 32 * (fl % 8), 0] ++ List.replicate n 7

theorem sync_first {m : Memory} {len i : Nat}
    (h : i + 1 < len ∧ Memory.read m i = 0xFF#8 ∧ (Memory.read m (i + 1)).toNat / 16 = 0xF) :
    FirstSyncWordAt m len i i :=
  ⟨Nat.le_refl _, h, fun _ h1 h2 => absurd h1 (Nat.not_le.mpr h2)⟩

theorem noSync_from {m : Memory} {len lo : Nat}
    (h : ∀ j, j < len → ¬ (Memory.read m j = 0xFF#8 ∧ (Memory.read m (j + 1)).toNat / 16 = 0xF)) :
    ∀ i, lo ≤ i → ¬ SyncWordAt m len i := fun i _ hs => h i (by have := hs.1; omega) hs.2

/-- Nothing left; no sync word in the bytes left, an 0xFF as the last byte; and a sync word at POS with 6 bytes, with 7
bytes and a frame_length of 6, of 8 (one byte short), and of 7 (the whole frame). -/
theorem witness_adts :
    ((small [7] 1 false []).Inv ∧ (small [7] 1 false []).pos = (small [7] 1 false []).len) ∧
      ((small [7, 0xFF] 0 false []).Inv ∧ (small [7, 0xFF] 0 false []).pos ≠ (small [7, 0xFF] 0 false []).len ∧
        ∀ i, 0 ≤ i → ¬ SyncWordAt (small [7, 0xFF] 0 false []).ibuf 2 i) ∧
      ((small [0xFF, 0xF1, 0, 0, 0, 0] 0 false []).Inv ∧
        FirstSyncWordAt (small [0xFF, 0xF1, 0, 0, 0, 0] 0 false []).ibuf 6 0 0 ∧ 6 - 0 < 7) ∧
      ∀ fl ∈ [6, 7, 8], (small (adtsStream fl 0) 0 false []).Inv ∧
        FirstSyncWordAt (small (adtsStream fl 0) 0 false []).ibuf 7 0 0 ∧ 7 ≤ 7 - 0 ∧
        (adtsHeader (small (adtsStream fl 0) 0 false []).ibuf 0).frameLength.toNat = fl := by
  refine ⟨⟨?_, rfl⟩, ⟨?_, by decide, noSync_from (by decide)⟩, ⟨?_, sync_first (by decide), by decide⟩, ?_⟩
  · exact invOf (by decide) (by decide) (by decide) (by decide) (by decide)
  · exact invOf (by decide) (by decide) (by decide) (by decide) (by decide)
  · exact invOf (by decide) (by decide) (by decide) (by decide) (by decide)
  · intro fl h
    have : fl = 6 ∨ fl = 7 ∨ fl = 8 := by simpa using h
    rcases this with rfl | rfl | rfl <;>
      exact ⟨invOf (by decide) (by decide) (by decide) (by decide) (by decide), sync_first (by decide),
        by decide, by decide⟩
theorem witness_adts_session :
    (small (adtsStream 7 2) 0 false []).Inv ∧
      ∃ ts u, OkSession .adtsNext (small (adtsStream 7 2) 0 false []) ts u ∧ ts ≠ [] :=
  ⟨invOf (by decide) (by decide) (by decide) (by decide) (by decide), _, _,
    .more rfl (by decide) (.done _), List.cons_ne_nil _ _⟩

/-! ### FLV -/

def flvFile (d : Nat) : List Nat := [0x46, 0x4C, 0x56, 1, 5, 0, 0, 0, d]

/-- 8 bytes; 9 bytes with another signature; data_offset 10 and 9 in 9 bytes. -/
theorem witness_flvHeader :
    ((small [0x46, 0x4C, 0x56, 1, 5, 0, 0, 0] 0 false []).Inv ∧ 8 - 0 < 9) ∧
      ((small [0x46, 0x4C, 0x57, 1, 5, 0, 0, 0, 9] 0 false []).Inv ∧
        bytesAt (small [0x46, 0x4C, 0x57, 1, 5, 0, 0, 0, 9] 0 false []).ibuf 0 3 ≠ [0x46#8, 0x4C#8, 0x56#8]) ∧
      ∀ d ∈ [9, 10], (small (flvFile d) 0 false []).Inv ∧
        bytesAt (small (flvFile d) 0 false []).ibuf 0 3 = [0x46#8, 0x4C#8, 0x56#8] ∧
        memRead (small (flvFile d) 0 false []).ibuf 5 4 = d := by
  refine ⟨⟨?_, by decide⟩, ⟨?_, by decide⟩, ?_⟩
  · exact invOf (by decide) (by decide) (by decide) (by decide) (by decide)
  · exact invOf (by decide) (by decide) (by decide) (by decide) (by decide)
  · intro d h
    have : d = 9 ∨ d = 10 := by simpa using h
    rcases this with rfl | rfl <;>
      exact ⟨invOf (by decide) (by decide) (by decide) (by decide) (by decide), by decide, by decide⟩

/-- A PreviousTagSize, then a tag header of type `tt` with data_size `ds`, then the bytes `bs`. -/
def flvTag (tt ds : Nat) (bs : List Nat) : List Nat := [0, 0, 0, 0, tt, 0, 0, ds, 0, 0, 0, 0, 0, 0, 0] ++ bs

theorem inv_flvTag :
    ∀ tt ∈ [0, 8, 9, 18], (small (flvTag tt 0 []) 0 false []).Inv ∧ (small (flvTag tt 1 [2]) 0 false []).Inv ∧
      (small (flvTag tt 1 []) 0 false []).Inv := by
  intro tt h
  have : tt = 0 ∨ tt = 8 ∨ tt = 9 ∨ tt = 18 := by simpa using h
  rcases this with rfl | rfl | rfl | rfl <;>
    exact ⟨invOf (by decide) (by decide) (by decide) (by decide) (by decide),
      invOf (by decide) (by decide) (by decide) (by decide) (by decide),
      invOf (by decide) (by decide) (by decide) (by decide) (by decide)⟩

/-- 14 bytes; 15 bytes with a data_size of 1; whole tags of each type with data_size 0 and 1. -/
theorem witness_flvNextTag :
    ((small (List.replicate 14 1) 0 false []).Inv ∧ 14 - 0 < 15) ∧
      ∀ tt ∈ [0, 8, 9, 18],
        ((small (flvTag tt 1 []) 0 false []).Inv ∧
          memRead (small (flvTag tt 1 []) 0 false []).ibuf 5 3 = 1 ∧ 15 ≤ 15 - 0 ∧ 15 - 0 < 15 + 1) ∧
        ((small (flvTag tt 0 []) 0 false []).Inv ∧
          memRead (small (flvTag tt 0 []) 0 false []).ibuf 5 3 = 0 ∧ 15 + 0 ≤ 15 - 0 ∧
          (Memory.read (small (flvTag tt 0 []) 0 false []).ibuf 4).toNat = tt) ∧
        (small (flvTag tt 1 [2]) 0 false []).Inv ∧
          memRead (small (flvTag tt 1 [2]) 0 false []).ibuf 5 3 = 1 ∧ 15 + 1 ≤ 16 - 0 ∧
          (Memory.read (small (flvTag tt 1 [2]) 0 false []).ibuf 4).toNat = tt := by
  refine ⟨⟨invOf (by decide) (by decide) (by decide) (by decide) (by decide), by decide⟩, fun tt h => ?_⟩
  have hi := inv_flvTag tt h
  have : tt = 0 ∨ tt = 8 ∨ tt = 9 ∨ tt = 18 := by simpa using h
  refine ⟨⟨hi.2.2, ?_⟩, ⟨hi.1, ?_⟩, hi.2.1, ?_⟩ <;> rcases this with rfl | rfl | rfl | rfl <;> decide
/-- Two whole tags in a row. -/
theorem witness_two_tags :
    (small (flvTag 8 1 [2] ++ flvTag 0 0 []) 0 false []).Inv ∧
      ∃ t u, issue .flvNextTag (small (flvTag 8 1 [2] ++ flvTag 0 0 []) 0 false []) = .next t ∧
        t.consumed ≠ 0#32 ∧ issue .flvNextTag t = .next u ∧ u.consumed ≠ 0#32 :=
  ⟨invOf (by decide) (by decide) (by decide) (by decide) (by decide), _, _, rfl, by decide, rfl, by decide⟩
/-- A tag that is consumed, and one that is not whole. -/
theorem witness_previous_tag :
    (∃ t t', exec .flvNextTag (small (flvTag 8 1 [2]) 0 false []) = .next t ∧
      exec .flvNextTag { small (flvTag 8 1 [2]) 0 false [] with flvPrev := ⟨true, 5#24⟩ } = .next t' ∧
      t.pos ≠ 0#32) ∧
    ∃ t t', exec .flvNextTag (small (flvTag 8 1 []) 0 false []) = .next t ∧
      exec .flvNextTag { small (flvTag 8 1 []) 0 false [] with flvPrev := ⟨true, 5#24⟩ } = .next t' ∧
      t.pos = 0#32 :=
  ⟨⟨_, _, rfl, rfl, by decide⟩, _, _, rfl, rfl, by decide⟩

/-! ### AMF -/

/-- The buffers differ just below and just above the payload [1, 3). -/
theorem witness_amf_payload :
    (∀ i, 1 ≤ i → i < 1 + 2 →
      Memory.read (memOf 0 (bytes [1, 2, 0, 3])) i = Memory.read (memOf 0 (bytes [9, 2, 0, 9])) i) ∧
      memOf 0 (bytes [1, 2, 0, 3]) ≠ memOf 0 (bytes [9, 2, 0, 9]) := by
  refine ⟨fun i h1 h2 => ?_, by decide⟩
  have : i = 1 ∨ i = 2 := by omega
  rcases this with rfl | rfl <;> decide

/-- A name and two pairs with one recognised key, `stereo`. -/
def scriptPairs : List (List Byte × AmfScalar) :=
  [(bytes [0x73, 0x74, 0x65, 0x72, 0x65, 0x6F], .boolean 1#8), ([], .text [0x41#8])]

theorem witness_amf_script :
    ScriptFits onMetaDataBytes scriptPairs ∧
      bytesAt (memOf 0 (encodeScript onMetaDataBytes scriptPairs)) 0
          (encodeScript onMetaDataBytes scriptPairs).length =
        encodeScript onMetaDataBytes scriptPairs := by
  refine ⟨⟨by decide, by decide, fun q h => ?_⟩, by decide⟩
  have : q = (bytes [0x73, 0x74, 0x65, 0x72, 0x65, 0x6F], .boolean 1#8) ∨ q = ([], .text [0x41#8]) := by
    simpa [scriptPairs] using h
  rcases this with rfl | rfl
  · exact ⟨by decide, fun _ h => nomatch h⟩
  · refine ⟨by decide, fun bs h => ?_⟩
    cases h
    decide

def amfStart : AmfCur := ⟨0, GAmf.zero, metaRowsZero⟩

/-- The end marker as the last three bytes, and with one byte after it. -/
theorem witness_amf_end :
    amfStart.k + 3 ≤ 3 ∧ amfStart.k + 3 = 3 ∧ amfStart.k + 3 ≤ 4 ∧ amfStart.k + 3 ≠ 4 ∧
      bytesAt (memOf 0 (bytes [0, 0, 9])) (0 + amfStart.k) 3 = [0x00#8, 0x00#8, 0x09#8] := by decide
/-- Type 0x03 stops each of the three, 0x08 the first and the third, 0x02 the second. -/
theorem witness_amf_undecoded :
    amfStart.k < 1 ∧ Memory.read (memOf 0 (bytes [3])) (0 + amfStart.k) = 0x03#8 ∧
      Memory.read (memOf 0 (bytes [8])) (0 + amfStart.k) = 0x08#8 ∧
      Memory.read (memOf 0 (bytes [2])) (0 + amfStart.k) = 0x02#8 := by decide
/-- Per clause, the last payload length that is too short: of a value (none at all, a String's length, its bytes, a Number,
a Boolean), of an array head, of a key's length and of its bytes, and of an end marker; and three other bytes. -/
theorem witness_amf_short :
    0 < amfStart.k + 1 ∧
      (Memory.read (memOf 0 (bytes [2, 0, 1])) amfStart.k = 0x02#8 ∧ amfStart.k + 1 ≤ 2 ∧ 2 < amfStart.k + 3 ∧
        amfStart.k + 3 ≤ 3 ∧ 3 < amfStart.k + 3 + memRead (memOf 0 (bytes [2, 0, 1])) 1 2) ∧
      (Memory.read (memOf 0 (bytes [8])) amfStart.k = 0x08#8 ∧ 4 < amfStart.k + 5) ∧
      (1 < amfStart.k + 2 ∧ amfStart.k + 2 ≤ 2 ∧ 2 < amfStart.k + 2 + memRead (memOf 0 (bytes [0, 1])) 0 2) ∧
      (Memory.read (memOf 0 (bytes [0])) amfStart.k = 0x00#8 ∧ amfStart.k + 1 ≤ 8 ∧ 8 < amfStart.k + 9) ∧
      (Memory.read (memOf 0 (bytes [1])) amfStart.k = 0x01#8 ∧ amfStart.k + 1 ≤ 1 ∧ 1 < amfStart.k + 2) ∧
      2 < amfStart.k + 3 ∧ amfStart.k + 3 ≤ 3 ∧
      bytesAt (memOf 0 (bytes [0, 0, 8])) (0 + amfStart.k) 3 ≠ [0x00#8, 0x00#8, 0x09#8] := by decide
/-- A pair whose value stops: an empty key, then type 0x09 (V44). -/
theorem witness_amf_pair_stop :
    amfStart.k + 2 + memRead (memOf 0 (bytes [0, 0, 9])) 0 2 ≤ 3 ∧
      ∃ e, amfValue (memOf 0 (bytes [0, 0, 9])) 0 3 (metaKeyRow (memOf 0 (bytes [0, 0, 9])) 2 0)
        (amfStart.skip 2) = .error e := ⟨by decide, _, rfl⟩
/-- The String "A" alone, and the empty String. -/
theorem witness_amf_name :
    bytesAt (memOf 0 (bytes [2, 0, 1, 0x41])) 0 4 = (AmfScalar.text [0x41#8]).encode ∧
      4 = (AmfScalar.text [0x41#8]).encode.length ∧
      bytesAt (memOf 0 (bytes [2, 0, 0])) 0 3 = (AmfScalar.text []).encode := by decide
/-- The key texts are the table's. -/
theorem test_meta_keys : metaKeys.map Prod.snd = ["duration", "width", "height", "videodatarate", "framerate",
    "videocodecid", "audiodatarate", "audiosamplerate", "audiosamplesize", "stereo", "audiocodecid",
    "filesize"].map ascii := by decide
theorem witness_script_outcome :
    ((small (flvTag 18 1 []) 0 false []).Inv ∧
        ∃ t, exec .flvNextTag (small (flvTag 18 1 []) 0 false []) = .next t ∧ t.consumed = 0#32) ∧
      (small (flvTag 18 1 [2]) 0 false []).Inv ∧
        ∃ t, exec .flvNextTag (small (flvTag 18 1 [2]) 0 false []) = .next t ∧ t.consumed ≠ 0#32 ∧
          t.flvt.kind = .script :=
  ⟨⟨(inv_flvTag 18 (by decide)).2.2, _, rfl, by decide⟩, (inv_flvTag 18 (by decide)).2.1, _, rfl, by decide, by decide⟩

/-! ### RTP and TS -/

/-- `n` bytes at POS 0 with payload type `pt`, and ARG. -/
def datagram (pt n arg : Nat) : State :=
  { small ([0x80, pt] ++ List.replicate (n - 2) 7) 0 false [] with arg := Word.ofN arg }

/-- ARG = avail + 1; ARG = 11; ARG = 12 with payload type 32 and with 33, marker bit set or not. -/
theorem witness_rtp :
    ((datagram 33 12 13).Inv ∧ 12 - 0 < (datagram 33 12 13).arg.toNat) ∧
      ((datagram 33 12 11).Inv ∧ (datagram 33 12 11).arg.toNat ≤ 12 - 0 ∧ (datagram 33 12 11).arg.toNat < 12) ∧
      ((datagram 32 12 12).Inv ∧ (datagram 32 12 12).arg.toNat ≤ 12 - 0 ∧ 12 ≤ (datagram 32 12 12).arg.toNat ∧
        (Memory.read (datagram 32 12 12).ibuf 1).toNat % 128 ≠ 33) ∧
      (datagram 33 12 12).Inv ∧ (Memory.read (datagram 33 12 12).ibuf 1).toNat % 128 = 33 ∧
      (datagram 161 12 12).Inv ∧ (Memory.read (datagram 161 12 12).ibuf 1).toNat % 128 = 33 := by
  refine ⟨⟨?_, by decide⟩, ⟨?_, by decide⟩, ⟨?_, by decide⟩, ?_, by decide, ?_, by decide⟩ <;>
    exact invOf (by decide) (by decide) (by decide) (by decide) (by decide)

/-- An armed iterator over `n` bytes from index 0, the first of which is `b`, and the rest 0. -/
def armed (b : Byte) (n : Nat) : State :=
  { State.resetWith 1024#32 with ibuf := [(0, b)], len := 1024#32, tsIter := ⟨true, 0#16, 0#32, Word.ofN n⟩ }

/-- No iterator; 187 bytes left; 188 bytes left without and with the sync byte. -/
theorem witness_ts :
    ((full []).Inv ∧ (full []).tsIter.active = false) ∧
      ((armed 0x47#8 187).Inv ∧ (armed 0x47#8 187).tsIter.active = true ∧
        (armed 0x47#8 187).tsIter.endOff.toNat - (armed 0x47#8 187).tsIter.nextOff.toNat < 188) ∧
      ((armed 0x46#8 188).Inv ∧ (armed 0x46#8 188).tsIter.active = true ∧
        188 ≤ (armed 0x46#8 188).tsIter.endOff.toNat - (armed 0x46#8 188).tsIter.nextOff.toNat ∧
        Memory.read (armed 0x46#8 188).ibuf (armed 0x46#8 188).tsIter.nextOff.toNat ≠ 0x47#8) ∧
      (armed 0x47#8 188).Inv ∧
        188 ≤ (armed 0x47#8 188).tsIter.endOff.toNat - (armed 0x47#8 188).tsIter.nextOff.toNat ∧
        Memory.read (armed 0x47#8 188).ibuf (armed 0x47#8 188).tsIter.nextOff.toNat = 0x47#8 := by
  refine ⟨⟨inv_full, rfl⟩, ⟨?_, by decide⟩, ⟨?_, by decide⟩, ?_, by decide⟩ <;>
    exact invOf (by decide) (by decide) (by decide) (by decide) (by decide)
/-- One whole stride and a residue of one byte. -/
theorem witness_ts_session :
    (armed 0x47#8 189).Inv ∧ (armed 0x47#8 189).tsIter.active = true ∧
      (armed 0x47#8 189).tsIter.nextIndex = 0#16 ∧
      ∀ k, k < (189 - 0) / 188 → Memory.read (armed 0x47#8 189).ibuf (0 + 188 * k) = 0x47#8 :=
  ⟨invOf (by decide) (by decide) (by decide) (by decide) (by decide), rfl, rfl, by decide⟩

/-! ### The whole machine -/

/-- A step that is neither reset nor the engine's turn on a busy block, and accepts a CMD write. -/
theorem witness_completion :
    Instr.seek ≠ .softReset ∧
      ∃ t, step (small [7] 0 false [wrLine .cmd 0x10#32]) = .next t ∧
        (small [7] 0 false [wrLine .cmd 0x10#32]).inputs.head? ≠ some .resetPin ∧
        ¬ (EngineTurnNext (small [7] 0 false [wrLine .cmd 0x10#32]) ∧
          (small [7] 0 false [wrLine .cmd 0x10#32]).status.busy = true) ∧
        t.status.lastOp ≠ (small [7] 0 false [wrLine .cmd 0x10#32]).status.lastOp :=
  ⟨by decide, _, rfl, by decide, fun h => (nomatch h.2), by decide⟩
/-- A retry after a shortfall that had written results. -/
theorem witness_retry :
    ∃ t, exec .flvHeader (small (flvFile 10) 0 false []) = .next t ∧ t.status.code = .needMoreData ∧
      t.flvh.dataOffset = 10#32 := ⟨_, rfl, by decide, by decide⟩
/-- Each of the three codes for want of input. -/
theorem witness_shortfall :
    (∃ t, exec .nalNext (small [7] 0 false []) = .next t ∧ t.status.code = .needMoreData) ∧
      (∃ t, exec .nalNext (full []) = .next t ∧ t.status.code = .capacityExceeded) ∧
      (∃ t, exec .flvHeader (small [7] 0 true []) = .next t ∧ t.status.code = .truncated) ∧
      ∃ t, exec .rtpParse { small [7] 0 true [] with arg := 11#32 } = .next t ∧ t.status.code = .truncated ∧
        ¬ (11 ≤ 1 - 0) :=
  ⟨⟨_, rfl, by decide⟩, ⟨_, rfl, by decide⟩, ⟨_, rfl, by decide⟩, _, rfl, by decide, by decide⟩
theorem witness_frame :
    ∀ i : Instr, (small [7, 8] 1 false []).Inv ∧ ∃ t, exec i (small [7, 8] 1 false []) = .next t := by
  intro i
  cases i <;> exact ⟨inv_idle, _, rfl⟩
/-- A result that does not consume, one that does, and a cursor command. -/
theorem witness_consumption :
    (∃ t, exec .nalNext (small [7] 0 false []) = .next t ∧ consumes .nalNext t.status.code = false) ∧
      (∃ t, exec .advance { small [7, 8] 1 false [] with arg := 1#32 } = .next t ∧ t.consumed = 1#32) ∧
      ∃ t, exec .compact (small [7, 8] 1 false []) = .next t :=
  ⟨⟨_, rfl, by decide⟩, ⟨_, rfl, by decide⟩, _, rfl⟩
/-- POS moved by a command, LEN by COMPACT, by reset and by an append. -/
theorem witness_cursor_events :
    (∃ t, step (busyWith .seek []) = .next t ∧ t.pos ≠ (busyWith .seek []).pos) ∧
      (∃ t, step (busyWith .compact [.engine]) = .next t ∧ t.len ≠ (busyWith .compact []).len) ∧
      (∃ t, step (busyWith .seek [.resetPin]) = .next t ∧ t.len ≠ (busyWith .seek []).len) ∧
      ∃ t, step (small [7] 0 false [wrLine .dataIn 5#32]) = .next t ∧ t.len ≠ 1#32 :=
  ⟨⟨_, rfl, by decide⟩, ⟨_, rfl, by decide⟩, ⟨_, rfl, by decide⟩, _, rfl, by decide⟩
/-- Each flag rises, and each falls by a write of 1. -/
theorem witness_sticky :
    (∃ t, step (full [wrLine .dataIn 5#32]) = .next t ∧ (full []).status.overflow = false ∧
        t.status.overflow = true ∧ ∃ u, step { t with inputs := [wrLine .status 4#32] } = .next u ∧
          u.status.overflow = false) ∧
      ∃ t, step (busyWith .seek [wrLine .arg 5#32]) = .next t ∧ (busyWith .seek []).status.busyWrite = false ∧
        t.status.busyWrite = true ∧ ∃ u, step { t with inputs := [wrLine .status 8#32] } = .next u ∧
          u.status.busyWrite = false :=
  ⟨⟨_, rfl, rfl, by decide, _, rfl, by decide⟩, _, rfl, rfl, by decide, _, rfl, by decide⟩
theorem witness_slices :
    (busyWith .seek []).Inv ∧ (∃ t, step (busyWith .seek []) = .next t) ∧
      (busyWith .seek []).inputs.head? ≠ some .resetPin ∧
      ¬ (EngineTurnNext (busyWith .seek []) ∧ (Running (busyWith .seek []) .compact ∨
        Running (busyWith .seek []) .softReset)) := by
  refine ⟨inv_busy, ⟨_, rfl⟩, by decide, fun h => ?_⟩
  have h1 : decode ((busyWith .seek []).status.lastOp.setWidth 32) = .ok .seek := by decide
  rcases h.2 with h | h <;> · have := h1.symm.trans h.2; cases this
theorem witness_invariant_step :
    (busyWith .seek []).Inv ∧ ∃ t, step (busyWith .seek []) = .next t := ⟨inv_busy, _, rfl⟩
theorem witness_reset_cap : 64 ≤ (64#32).toNat ∧ (64#32).toNat ≤ 16777216 ∧ (16777216#32).toNat ≤ 16777216 := by decide
/-- Entries at and above LEN differ. -/
theorem witness_unobservable :
    (small [7, 8] 1 false []).CursorInv ∧ Memory.wf (small [7, 8] 1 false []).ibuf ∧
      Memory.wf [(0, 7#8), (1, 8#8), (2, 9#8)] ∧
      (∀ k, k < (small [7, 8] 1 false []).len.toNat →
        Memory.read [(0, 7#8), (1, 8#8), (2, 9#8)] k = Memory.read (small [7, 8] 1 false []).ibuf k) :=
  ⟨inv_idle.toCursorInv, inv_idle.mem_wf, by decide, by decide⟩

end Sys2Proof.Tests
end

section
/-! Proofs of the family 10_state (O9, O14, O21): the address map and the bus accesses, LEN under every step,
the window, and the reset values. -/

namespace Sys2Proof.Machine

/-! ## The address map (20_memory R61) -/

theorem reg_offset_le (r : Reg) : r.offset ≤ 0x260 := by
  cases r with
  | metaInfo i | metaHi i | metaLo i | metaReserved i => simp only [Reg.offset]; omega
  | _ => decide

theorem reg_offset_aligned (r : Reg) : r.offset % 4 = 0 := by
  cases r with
  | metaInfo i | metaHi i | metaLo i | metaReserved i => simp only [Reg.offset]; omega
  | _ => rfl

theorem offset_of_regAt {off : Nat} {r : Reg} (h : regAt off = some r) : r.offset = off := by
  simpa using List.find?_some h

/-- No register stands above the last one, TS_END_OFF. -/
theorem regAt_eq_none_of_gt {off : Nat} (h : 0x260 < off) : regAt off = none := by
  cases hr : regAt off with
  | none => rfl
  | some r =>
    have := offset_of_regAt hr
    have := reg_offset_le r
    omega

theorem busTarget_of_regAt {off : Nat} {r : Reg} (cap : Nat) (h : regAt off = some r) :
    busTarget cap off = .reg r := by
  simp only [busTarget, h]

theorem regAt_of_busTarget {cap off : Nat} {r : Reg} (h : busTarget cap off = .reg r) :
    regAt off = some r := by
  unfold busTarget at h
  split at h
  next r' hr =>
    obtain rfl : r' = r := by simpa using h
    exact hr
  · split at h <;> cases h

/-- Index `i` of the window stands at WIN_BASE + 4 i (10_state R41). -/
theorem busTarget_window {cap i : Nat} (h : i < cap) :
    busTarget cap (Config.winBase + 4 * i) = .window i := by
  have hnone : regAt (Config.winBase + 4 * i) = none :=
    regAt_eq_none_of_gt (by simp only [Config.winBase]; omega)
  have hin : Config.winBase ≤ Config.winBase + 4 * i ∧
      Config.winBase + 4 * i < Config.winBase + 4 * cap := by omega
  simp only [busTarget, hnone, if_pos hin, Target.window.injEq]
  omega

/-! ## Bus accesses (20_memory R63, R65) -/

theorem formError_eq_none_iff (a : BusAccess) :
    formError a = none ↔ a.width = .word ∧ a.offset.toNat % 4 = 0 := by
  by_cases hw : a.width = .word <;> by_cases ha : a.offset.toNat % 4 = 0 <;>
    simp [formError, BusAccess.isWord, BusAccess.isAligned, hw, ha]

theorem hostAccess_read_word {off : Word} (s : State) (h : off.toNat % 4 = 0) :
    hostAccess (.read .word off) s = hostRead off s := by
  simp only [hostAccess, (formError_eq_none_iff (.read .word off)).2 ⟨rfl, h⟩]

theorem hostAccess_write_word {off : Word} (v : Word) (s : State) (h : off.toNat % 4 = 0) :
    hostAccess (.write .word off v) s = hostWrite off v s := by
  simp only [hostAccess, (formError_eq_none_iff (.write .word off v)).2 ⟨rfl, h⟩]

theorem hostAccess_read_reg {off : Word} {r : Reg} (s : State) (h : regAt off.toNat = some r) :
    hostAccess (.read .word off) s = .next (hostReadReg r s) := by
  have ha : off.toNat % 4 = 0 := offset_of_regAt h ▸ reg_offset_aligned r
  simp only [hostAccess_read_word s ha, hostRead, busTarget_of_regAt _ h]

theorem hostAccess_write_reg {off : Word} {r : Reg} (v : Word) (s : State)
    (h : regAt off.toNat = some r) :
    hostAccess (.write .word off v) s = .next (respond .writeOk (hostWriteReg r v s)) := by
  have ha : off.toNat % 4 = 0 := offset_of_regAt h ▸ reg_offset_aligned r
  simp only [hostAccess_write_word v s ha, hostWrite, busTarget_of_regAt _ h]

/-- All that an access without a bus error can do: a read changes the model's answer and counter alone, and a
write is a write to the register at its offset. -/
theorem hostAccess_next_cases {a : BusAccess} {s t : State} (h : hostAccess a s = .next t) :
    (∃ off v n, a = .read .word off ∧ t = { s with response := .readData v, freeCount := n }) ∨
      ∃ off r v, a = .write .word off v ∧ r.offset = off.toNat ∧
        t = respond .writeOk (hostWriteReg r v s) := by
  unfold hostAccess at h
  split at h
  · cases h
  next hform =>
    obtain ⟨hw, -⟩ := (formError_eq_none_iff a).1 hform
    cases a with
    | read w off =>
      obtain rfl : w = .word := hw
      left
      simp only [hostRead] at h
      split at h
      next r _ =>
        obtain ⟨v, n, hr⟩ := hostReadReg_block r s
        exact ⟨off, v, n, rfl, by rw [← hr]; cases h; rfl⟩
      next i _ =>
        obtain ⟨v, n, hr⟩ := hostReadWindow_block i s
        exact ⟨off, v, n, rfl, by rw [← hr]; cases h; rfl⟩
      · cases h
    | write w off v =>
      obtain rfl : w = .word := hw
      right
      simp only [hostWrite] at h
      split at h
      next r hr =>
        exact ⟨off, r, v, rfl, offset_of_regAt (regAt_of_busTarget hr), by cases h; rfl⟩
      · cases h
      · cases h

theorem hostReadReg_of_idle {s : State} (r : Reg) (h : s.status.busy = false) :
    hostReadReg r s = respond (.readData (readReg s r)) s := by
  simp [hostReadReg, h]

theorem hostWriteReg_of_busy {r : Reg} {s : State} (v : Word) (hs : r ≠ .status)
    (hr : regWritable r = true) (hb : s.status.busy = true) :
    hostWriteReg r v s = { s with status := { s.status with busyWrite := true } } := by
  simp only [hostWriteReg, if_neg hs, if_pos hr, if_pos hb]

theorem hostWriteReg_of_idle {r : Reg} {s : State} (v : Word) (hs : r ≠ .status)
    (hr : regWritable r = true) (hb : s.status.busy = false) :
    hostWriteReg r v s = writeReg r v s := by
  simp [hostWriteReg, hs, hr, hb]

/-! ## DATA_IN (10_state R28) -/

theorem regAt_dataIn : regAt (0x01C#32).toNat = some .dataIn := by decide

theorem writeDataIn_full {s : State} (v : Word) (h : s.len = s.cap) :
    writeDataIn v s = { s with status := { s.status with overflow := true } } := if_pos h

theorem writeDataIn_room {s : State} (v : Word) (h : s.len ≠ s.cap) :
    writeDataIn v s = appendByte (v.setWidth 8) s := if_neg h

/-- Below BUF_CAP the successor of LEN fits its register (00_scope R18). -/
theorem State.Inv.len_succ_toNat {s : State} (h : s.Inv) (hroom : s.len ≠ s.cap) :
    (Word.ofN (s.len.toNat + 1)).toNat = s.len.toNat + 1 := by
  have hcap := s.cap.isLt
  have hle := h.len_le_cap
  have hne : s.len.toNat ≠ s.cap.toNat := fun e => hroom (BitVec.eq_of_toNat_eq e)
  rw [BitVec.toNat_ofNat, Nat.mod_eq_of_lt (by omega)]

theorem hostAccess_write_dataIn_busy {s : State} (v : Word) (hb : s.status.busy = true) :
    hostAccess (.write .word 0x01C#32 v) s =
      .next { s with response := .writeOk, status := { s.status with busyWrite := true } } := by
  rw [hostAccess_write_reg v s regAt_dataIn, hostWriteReg_of_busy v (by decide) rfl hb]
  rfl

theorem hostAccess_write_dataIn_idle {s : State} (v : Word) (hb : s.status.busy = false) :
    hostAccess (.write .word 0x01C#32 v) s = .next (respond .writeOk (writeDataIn v s)) := by
  rw [hostAccess_write_reg v s regAt_dataIn, hostWriteReg_of_idle v (by decide) rfl hb]
  rfl

/-! ## LEN under a register write -/

/-- While not BUSY only a DATA_IN write below BUF_CAP changes LEN. -/
theorem writeReg_len (r : Reg) (v : Word) (s : State) :
    (writeReg r v s).len = s.len ∨ r = .dataIn ∧ s.len ≠ s.cap := by
  cases r with
  | dataIn =>
    by_cases h : s.len = s.cap
    · left; simp only [writeReg, writeDataIn_full v h]
    · exact .inr ⟨rfl, h⟩
  | _ => exact .inl rfl

theorem hostWriteReg_len (r : Reg) (v : Word) (s : State) :
    (hostWriteReg r v s).len = s.len ∨ r = .dataIn ∧ s.status.busy = false ∧ s.len ≠ s.cap := by
  obtain ⟨-, he⟩ | ⟨-, -, -, he⟩ | ⟨-, -, hidle, he⟩ | ⟨-, -, he⟩ := hostWriteReg_cases r v s <;>
    rw [he]
  · exact .inl rfl
  · exact .inl rfl
  · exact (writeReg_len r v s).imp_right fun ⟨hr, hroom⟩ => ⟨hr, hidle, hroom⟩
  · exact .inl rfl

/-- An access changes LEN only by a DATA_IN write while not BUSY and below BUF_CAP. -/
theorem hostAccess_len {a : BusAccess} {s t : State} (h : hostAccess a s = .next t) :
    t.len = s.len ∨
      (∃ v, a = .write .word 0x01C#32 v) ∧ s.status.busy = false ∧ s.len ≠ s.cap := by
  obtain ⟨off, v, n, -, rfl⟩ | ⟨off, r, v, rfl, hoff, rfl⟩ := hostAccess_next_cases h
  · exact .inl rfl
  · refine (hostWriteReg_len r v s).imp_right ?_
    rintro ⟨rfl, hidle, hroom⟩
    obtain rfl : off = 0x01C#32 := BitVec.eq_of_toNat_eq hoff.symm
    exact ⟨⟨v, rfl⟩, hidle, hroom⟩

/-! ## LEN under a command: eight commands keep it, COMPACT and SOFT_RESET lower it -/

theorem nalNextBody_len (l : Latch) (s : State) : (nalNextBody l s).len = s.len := by
  fun_cases nalNextBody l s <;> rfl

theorem adtsFromSync_len (l : Latch) (sy : Nat) (s : State) : (adtsFromSync l sy s).len = s.len := by
  fun_cases adtsFromSync l sy s <;> rfl

theorem adtsNextBody_len (l : Latch) (s : State) : (adtsNextBody l s).len = s.len := by
  fun_cases adtsNextBody l s
  case case4 sy _ => exact adtsFromSync_len l sy s
  all_goals rfl

theorem shortfall_len (l : Latch) (need : Nat) (s : State) : (shortfall l need s).len = s.len := rfl

theorem storeFlvHeader_len (p0 : Nat) (s : State) : (storeFlvHeader p0 s).len = s.len := rfl

-- The branches are closed by rewriting: under `rfl` the kernel evaluates the stored data_offset.
theorem flvHeaderBody_len (l : Latch) (s : State) : (flvHeaderBody l s).len = s.len := by
  simp only [flvHeaderBody]
  split
  · exact shortfall_len ..
  · split
    · exact complete_len ..
    · split
      · rw [shortfall_len, storeFlvHeader_len]
      · rw [complete_len, consumeTo_len, storeFlvHeader_len]

theorem flvPayload_len (kind : TagKind) (p ds : Nat) (s : State) :
    (flvPayload kind p ds s).len = s.len := by
  cases kind with
  | audio => simp only [flvPayload, flvAudioTag]; split <;> rfl
  | video => simp only [flvPayload, flvVideoTag]; split <;> rfl
  | script => rfl
  | unknown => rfl

theorem flvNextTagBody_len (l : Latch) (s : State) : (flvNextTagBody l s).len = s.len := by
  fun_cases flvNextTagBody l s
  case case4 => exact flvPayload_len ..
  all_goals rfl

theorem rtpParseBody_len (l : Latch) (s : State) : (rtpParseBody l s).len = s.len := by
  fun_cases rtpParseBody l s <;> rfl

theorem tsNextBody_len (s : State) : (tsNextBody s).len = s.len := by
  fun_cases tsNextBody s <;> rfl

theorem seekBody_len (l : Latch) (s : State) : (seekBody l s).len = s.len := by
  fun_cases seekBody l s <;> rfl

theorem advanceBody_len (l : Latch) (s : State) : (advanceBody l s).len = s.len := by
  fun_cases advanceBody l s <;> rfl

/-- COMPACT lowers LEN by POS and SOFT_RESET sets it to 0; every other command keeps it
(40_cursor R122, R123). -/
theorem exec_len {i : Instr} {s t : State} (h : exec i s = .next t) :
    t.len =
      match i with
      | .compact => Word.ofN (s.len.toNat - s.pos.toNat)
      | .softReset => 0#32
      | _ => s.len := by
  cases i <;> cases h
  case nalNext => simp only [nalNextBody_len, startCommand_len]
  case adtsNext => simp only [adtsNextBody_len, startCommand_len]
  case flvHeader => simp only [flvHeaderBody_len, startCommand_len]
  case flvNextTag => simp only [flvNextTagBody_len, startCommand_len]
  case rtpParse => simp only [rtpParseBody_len, startCommand_len]
  case tsNext => simp only [tsNextBody_len, startCommand_len]
  case seek => simp only [seekBody_len, startCommand_len]
  case advance => simp only [advanceBody_len, startCommand_len]
  case compact => rfl
  case softReset => rfl

theorem exec_len_le {i : Instr} {s t : State} (h : exec i s = .next t) :
    t.len.toNat ≤ s.len.toNat := by
  rw [exec_len h]
  cases i with
  | compact => exact (Nat.mod_le _ _).trans (Nat.sub_le _ _)
  | softReset => exact Nat.zero_le _
  | _ => exact le_rfl

theorem engineTurn_len_le {s t : State} (h : engineTurn s = .next t) :
    t.len.toNat ≤ s.len.toNat := by
  unfold engineTurn at h
  split at h
  next w _ =>
    unfold runCommandWord at h
    split at h
    · exact exec_len_le h
    · cases h; exact le_rfl
  · cases h; exact le_rfl

/-! ## All that a step can do (00_scope R5) -/

theorem step_next_cases {s t : State} (h : step s = .next t) :
    (EngineTurnNext s ∧
        engineTurn
          (if s.inputs.head? = some .engine then { s with inputs := s.inputs.tail } else s) =
            .next t) ∨
      (∃ a rest, s.inputs = .access a :: rest ∧
        hostAccess a { s with inputs := rest } = .next t) ∨
      (∃ rest, s.inputs = .wait :: rest ∧ s.status.busy = false ∧ t = hostPoll rest s) ∨
      ∃ rest, s.inputs = .resetPin :: rest ∧ t = resetBlock { s with inputs := rest } := by
  unfold step at h
  split at h
  next hin => exact .inl ⟨.inl hin, by simpa [hin] using h⟩
  next rest hin => exact .inl ⟨.inr (.inl (by simp [hin])), by simpa [hin] using h⟩
  next a rest hin => exact .inr (.inl ⟨a, rest, hin, h⟩)
  next rest hin =>
    split at h
    next hb => exact .inl ⟨.inr (.inr ⟨by simp [hin], hb⟩), by simpa [hin] using h⟩
    next hb => exact .inr (.inr (.inl ⟨rest, hin, by simpa using hb, by cases h; rfl⟩))
  next rest hin => exact .inr (.inr (.inr ⟨rest, hin, by cases h; rfl⟩))

theorem hostPoll_len (rest : List Input) (s : State) : (hostPoll rest s).len = s.len := by
  obtain ⟨v, n, hr⟩ := hostReadReg_block .status s
  simp only [hostPoll, hr]
  split <;> rfl

/-- Input bytes enter the block by no other path than an idle DATA_IN write below BUF_CAP (10_state R28). -/
theorem step_len_grows {s t : State} (h : step s = .next t) (hgrow : s.len.toNat < t.len.toNat) :
    s.status.busy = false ∧ s.len ≠ s.cap ∧
      ∃ v rest, s.inputs = .access (.write .word 0x01C#32 v) :: rest := by
  obtain ⟨-, he⟩ | ⟨a, rest, hin, ha⟩ | ⟨rest, -, -, rfl⟩ | ⟨rest, -, rfl⟩ := step_next_cases h
  · have hle := engineTurn_len_le he
    split at hle <;> exact absurd hgrow hle.not_gt
  · obtain hlen | ⟨⟨v, rfl⟩, hidle, hroom⟩ := hostAccess_len ha
    · simp [hlen] at hgrow
    · exact ⟨hidle, hroom, v, rest, hin⟩
  · simp [hostPoll_len] at hgrow
  · simp at hgrow

/-- Settles O9: the three branches of a DATA_IN write and its idle read, then the growth of LEN by the cases of a
step. -/
theorem dataInIsTheOnlyAppend : Obligations.DataInIsTheOnlyAppend := by
  refine ⟨fun s v hinv => ⟨hostAccess_write_dataIn_busy v, fun hb hfull => ?_, fun hb hroom => ?_,
    fun hb => ?_⟩, fun s t _ => step_len_grows⟩
  · rw [hostAccess_write_dataIn_idle v hb, writeDataIn_full v hfull]; rfl
  · refine ⟨_, hostAccess_write_dataIn_idle v hb, ?_⟩
    rw [writeDataIn_room v hroom]
    exact ⟨rfl, hinv.len_succ_toNat hroom, fun k => Memory.read_write hinv.mem_wf _ k _⟩
  · rw [hostAccess_read_reg s regAt_dataIn, hostReadReg_of_idle _ hb]; rfl

/-! ## The window (10_state R41) -/

/-- Every offset of the window fits the bus word, since BUF_CAP is at most 2^24 (00_scope R6). -/
theorem State.Inv.window_offset_toNat {s : State} (h : s.Inv) {i : Nat} (hi : i < s.cap.toNat) :
    (Word.ofN (Config.winBase + 4 * i)).toNat = Config.winBase + 4 * i := by
  have hcap := h.cap_max
  simp only [Config.capMax] at hcap
  rw [BitVec.toNat_ofNat, Nat.mod_eq_of_lt (by simp only [Config.winBase]; omega)]

theorem window_offset_aligned (i : Nat) : (Config.winBase + 4 * i) % 4 = 0 := by
  simp only [Config.winBase]; omega

theorem hostAccess_read_window {s : State} (h : s.Inv) {i : Nat} (hi : i < s.cap.toNat) :
    hostAccess (.read .word (Word.ofN (Config.winBase + 4 * i))) s = .next (hostReadWindow i s) := by
  have hoff := h.window_offset_toNat hi
  rw [hostAccess_read_word s (hoff.symm ▸ window_offset_aligned i)]
  simp only [hostRead, hoff, busTarget_window hi]

theorem hostAccess_write_window {s : State} (h : s.Inv) {i : Nat} (hi : i < s.cap.toNat) (v : Word) :
    hostAccess (.write .word (Word.ofN (Config.winBase + 4 * i)) v) s =
      .fault (.busError .windowWrite) := by
  have hoff := h.window_offset_toNat hi
  rw [hostAccess_write_word v s (hoff.symm ▸ window_offset_aligned i)]
  simp only [hostWrite, hoff, busTarget_window hi]

theorem hostReadWindow_of_idle {s : State} (i : Nat) (h : s.status.busy = false) :
    hostReadWindow i s = respond (.readData (readWindow s i)) s := by
  simp [hostReadWindow, h]

theorem hostReadWindow_of_busy {s : State} (i : Nat) (h : s.status.busy = true) :
    hostReadWindow i s = respondFree s := if_pos h

/-- Settles O14: the offset is that of window index i, where a read is a window read and a write is a bus error. -/
theorem windowReadsTheValidBytes : Obligations.WindowReadsTheValidBytes := by
  refine fun s i hinv hi => ⟨fun hb => ?_, hostAccess_write_window hinv hi, fun hb => ?_⟩
  · exact (hostAccess_read_window hinv hi).trans (by rw [hostReadWindow_of_idle i hb]; rfl)
  · exact ⟨_, (hostAccess_read_window hinv hi).trans (by rw [hostReadWindow_of_busy i hb]; rfl)⟩

/-! ## The reset values (10_state R45) -/

@[simp] theorem metaRowsZero_get (i : Fin 12) : metaRowsZero.get i = MetaRow.zero := by
  simp [metaRowsZero, Vector.get_eq_getElem]

/-! Every composed register word of a cleared group is 0 (10_state R22 to R39). -/

@[simp] theorem ctrl_zero_toWord : Ctrl.zero.toWord = 0#32 := by decide
@[simp] theorem status_zero_toWord : Status.zero.toWord = 0#32 := by decide
@[simp] theorem nal_zero_infoWord : GNal.zero.infoWord = 0#32 := by decide
@[simp] theorem adts_zero_hdrWord : GAdts.zero.hdrWord = 0#32 := by decide
@[simp] theorem adts_zero_lenWord : GAdts.zero.lenWord = 0#32 := by decide
@[simp] theorem flvh_zero_hdrWord : GFlvh.zero.hdrWord = 0#32 := by decide
@[simp] theorem flvt_zero_tagWord : GFlvt.zero.tagWord = 0#32 := by decide
@[simp] theorem amf_zero_statusWord : GAmf.zero.statusWord = 0#32 := by decide
@[simp] theorem metaRow_zero_infoWord : MetaRow.zero.infoWord = 0#32 := by decide
@[simp] theorem rtp_zero_hdrWord : GRtp.zero.hdrWord = 0#32 := by decide
@[simp] theorem ts_zero_hdrWord : GTs.zero.hdrWord = 0#32 := by decide
@[simp] theorem tsIter_zero_word : TsIter.zero.word = 0#32 := by decide

theorem readReg_resetWith (cap : Word) (r : Reg) :
    readReg (State.resetWith cap) r =
      if r = .id then Config.idValue else if r = .cap then cap else 0#32 := by
  cases r with
  | ctrl => exact ctrl_zero_toWord
  | status => exact status_zero_toWord
  | nalInfo => exact nal_zero_infoWord
  | adtsHdr => exact adts_zero_hdrWord
  | adtsLen => exact adts_zero_lenWord
  | flvHdr => exact flvh_zero_hdrWord
  | flvTag => exact flvt_zero_tagWord
  | amfStatus => exact amf_zero_statusWord
  | rtpHdr => exact rtp_zero_hdrWord
  | tsHdr => exact ts_zero_hdrWord
  | tsIter => exact tsIter_zero_word
  | metaInfo i => simp [readReg, State.resetWith]
  | metaHi i | metaLo i => simp [readReg, State.resetWith, MetaRow.zero]
  | _ => rfl

theorem readWindow_resetWith (cap : Word) (i : Nat) : readWindow (State.resetWith cap) i = 0#32 :=
  if_neg (Nat.not_lt_zero i)

/-- Settles O21, register by register: only ID and CAP read a constant, and LEN = 0 hides the window. -/
theorem resetLeavesTheResetValues : Obligations.ResetLeavesTheResetValues :=
  fun cap => ⟨readReg_resetWith cap, rfl, readWindow_resetWith cap⟩

end Sys2Proof.Machine
end

section
/-! Proof of the family 30_encoding (O27): what a big-endian read says of its bytes, and the start-code function. -/

namespace Sys2Proof.Machine

/-! ## Big-endian reads (00_scope R10): the first byte is the most significant digit to base 256 -/

/-- With `v` below the first byte's weight, the number determines the byte and the rest. -/
theorem memRead_succ_eq_iff {m : Memory} {i n v : Nat} {b : Byte} (hv : v < 256 ^ n) :
    memRead m i (n + 1) = b.toNat * 256 ^ n + v ↔ Memory.read m i = b ∧ memRead m (i + 1) n = v := by
  have hrest : memRead m (i + 1) n < 256 ^ n := memRead_lt m (i + 1) n
  have hpos : 0 < 256 ^ n := by positivity
  simp only [memRead]
  constructor
  · intro h
    have hbyte : (Memory.read m i).toNat = b.toNat := by
      have hquot := congrArg (· / 256 ^ n) h
      simpa only [Nat.mul_comm _ (256 ^ n), Nat.mul_add_div hpos, Nat.div_eq_of_lt hrest,
        Nat.div_eq_of_lt hv, Nat.add_zero] using hquot
    exact ⟨BitVec.eq_of_toNat_eq hbyte, Nat.add_left_cancel (hbyte ▸ h)⟩
  · rintro ⟨rfl, rfl⟩
    rfl

theorem memRead_one_eq_one_iff {m : Memory} {i : Nat} : memRead m i 1 = 1 ↔ Memory.read m i = 1#8 := by
  simpa [memRead] using memRead_succ_eq_iff (m := m) (i := i) (n := 0) (v := 0) (b := 1#8) (by decide)

/-- A leading byte of the number 1 is 00. -/
theorem memRead_succ_succ_eq_one_iff {m : Memory} {i n : Nat} :
    memRead m i (n + 2) = 1 ↔ Memory.read m i = 0#8 ∧ memRead m (i + 1) (n + 1) = 1 := by
  have hweight : 1 < 256 ^ (n + 1) := Nat.one_lt_pow n.succ_ne_zero (by decide)
  simpa using memRead_succ_eq_iff (m := m) (i := i) (b := 0#8) hweight

/-! ## The start-code function (30_encoding R85) -/

theorem startCodeAt_four_iff {m : Memory} {len i : Nat} :
    StartCodeAt m len i 4 ↔ i + 3 < len ∧ memRead m i 4 = 0x00000001 := by
  simp [StartCodeAt, memRead_succ_succ_eq_one_iff, memRead_one_eq_one_iff, Nat.add_assoc]

theorem startCodeAt_three_iff {m : Memory} {len i : Nat} :
    StartCodeAt m len i 3 ↔ i + 2 < len ∧ memRead m i 3 = 0x000001 := by
  simp [StartCodeAt, memRead_succ_succ_eq_one_iff, memRead_one_eq_one_iff, Nat.add_assoc]

theorem StartCodeAt.length_cases {m : Memory} {len i c : Nat} (h : StartCodeAt m len i c) :
    c = 4 ∨ c = 3 :=
  h.imp And.left And.left

/-- The byte at i + 2 tells the two patterns apart. -/
theorem StartCodeAt.third_byte {m : Memory} {len i c : Nat} (h : StartCodeAt m len i c) :
    c = if Memory.read m (i + 2) = 0#8 then 4 else 3 := by
  rcases h with ⟨rfl, -, -, -, hthird, -⟩ | ⟨rfl, -, -, -, hthird⟩ <;> rw [hthird] <;> rfl

theorem StartCodeAt.unique {m : Memory} {len i c d : Nat} (hc : StartCodeAt m len i c)
    (hd : StartCodeAt m len i d) : c = d :=
  hc.third_byte.trans hd.third_byte.symm

theorem StartCodeAt.iff_eq {m : Memory} {len i c d : Nat} (hd : StartCodeAt m len i d) :
    StartCodeAt m len i c ↔ d = c :=
  ⟨hd.unique, fun h => h ▸ hd⟩

/-- Later bytes leave a match in place. -/
theorem StartCodeAt.mono {m : Memory} {len len' i c : Nat} (hle : len ≤ len')
    (h : StartCodeAt m len i c) : StartCodeAt m len' i c :=
  h.imp (fun ⟨hc, hlen, hbytes⟩ => ⟨hc, hlen.trans_le hle, hbytes⟩)
    (fun ⟨hc, hlen, hbytes⟩ => ⟨hc, hlen.trans_le hle, hbytes⟩)

/-- With index i + 3 below `len`, a match rests on no byte from `len` on. -/
theorem StartCodeAt.of_decided {m : Memory} {len len' i c : Nat} (hdec : i + 3 < len)
    (h : StartCodeAt m len' i c) : StartCodeAt m len i c :=
  h.imp (fun ⟨hc, _, hbytes⟩ => ⟨hc, hdec, hbytes⟩)
    (fun ⟨hc, _, hbytes⟩ => ⟨hc, Nat.lt_of_succ_lt hdec, hbytes⟩)

/-- The search tests the patterns of `StartCodeAt`; that it tests the 4-byte one first makes no difference. -/
theorem startCode_eq_some_iff {m : Memory} {len i c : Nat} :
    startCode m len i = some c ↔ StartCodeAt m len i c := by
  unfold startCode
  split
  next hfour => rw [Option.some_inj, (startCodeAt_four_iff.mpr hfour).iff_eq]
  next hfour =>
    split
    next hthree => rw [Option.some_inj, (startCodeAt_three_iff.mpr hthree).iff_eq]
    next hthree =>
      refine ⟨nofun, fun h => ?_⟩
      obtain rfl | rfl := h.length_cases
      · exact absurd (startCodeAt_four_iff.mp h) hfour
      · exact absurd (startCodeAt_three_iff.mp h) hthree

/-- SC(i) is decided by a match. -/
theorem startCode_of_match {m : Memory} {len len' i : Nat} (hle : len ≤ len')
    (h : startCode m len i ≠ none) : startCode m len' i = startCode m len i := by
  obtain ⟨c, hc⟩ := Option.ne_none_iff_exists'.mp h
  rw [hc, startCode_eq_some_iff]
  exact (startCode_eq_some_iff.mp hc).mono hle

/-- SC(i) is decided once the byte at i + 3 is present. -/
theorem startCode_of_decided {m : Memory} {len len' i : Nat} (hle : len ≤ len') (hdec : i + 3 < len) :
    startCode m len' i = startCode m len i := by
  ext c
  rw [startCode_eq_some_iff, startCode_eq_some_iff]
  exact ⟨.of_decided hdec, .mono hle⟩

/-- With `00` at i + 2 only the 4-byte pattern is left, and it needs the byte at i + 3. -/
theorem startCode_eq_none_of_third_zero {m : Memory} {len i : Nat} (hend : len ≤ i + 3)
    (hthird : Memory.read m (i + 2) = 0#8) : startCode m len i = none := by
  refine Option.eq_none_iff_forall_ne_some.mpr fun c hc => ?_
  have hat : StartCodeAt m len i c := startCode_eq_some_iff.mp hc
  obtain rfl : c = 4 := by simpa [hthird] using hat.third_byte
  exact hend.not_gt (startCodeAt_four_iff.mp hat).1

/-- Settles O27: the search is the two patterns, the byte at i + 2 excludes one of them, and the decided and the
undecided cases follow from which bytes each pattern reads. -/
theorem startCodeMatchesItsPatterns : Obligations.StartCodeMatchesItsPatterns := by
  refine ⟨fun _ _ _ _ => startCode_eq_some_iff, fun _ _ _ _ _ => StartCodeAt.unique, ?_, ?_⟩
  · rintro m len len' i hle (hmatch | hdec)
    · exact startCode_of_match hle hmatch
    · exact startCode_of_decided hle hdec
  · intro m len len' i _ hend hlen' h0 h1 h2 h3
    exact ⟨startCode_eq_none_of_third_zero hend h2,
      startCode_eq_some_iff.mpr (.inl ⟨rfl, hlen', h0, h1, h2, h3⟩)⟩

end Sys2Proof.Machine
end

section
/-! Proofs of the family 40_cursor (O7, O23, O24, O25): a reserved opcode at the engine's turn, the register words the
cursor commands compute, and SEEK, ADVANCE and COMPACT. -/

namespace Sys2Proof.Machine

/-! ## The opcode of a decoded word (30_encoding R81, R82) -/

/-- Every row of the opcode map compares bits 7:0, and those bits alone, with its command's opcode. -/
theorem opcodeTable_row {r : OpcodeRow} (h : r ∈ opcodeTable) :
    r.mask = 0x000000FF#32 ∧ r.pattern = r.instr.opcode.setWidth 32 := by
  revert r
  decide

theorem opcode_of_row_matches {r : OpcodeRow} {w : Word} (hr : r ∈ opcodeTable)
    (hm : r.matches w = true) : r.instr.opcode = w.setWidth 8 := by
  obtain ⟨hmask, hpattern⟩ := opcodeTable_row hr
  have hbits : w &&& 0x000000FF#32 = r.instr.opcode.setWidth 32 := by
    simpa [OpcodeRow.matches, hmask, hpattern] using hm
  calc r.instr.opcode
      = (r.instr.opcode.setWidth 32).setWidth 8 := by simp
    _ = (w &&& 0x000000FF#32).setWidth 8 := by rw [hbits]
    _ = w.setWidth 8 &&& BitVec.allOnes 8 := BitVec.setWidth_and ..
    _ = w.setWidth 8 := BitVec.and_allOnes

theorem opcode_of_decode {w : Word} {i : Instr} (h : decode w = .ok i) : i.opcode = w.setWidth 8 := by
  unfold decode at h
  split at h
  next r hfind =>
    cases h
    exact opcode_of_row_matches (List.mem_of_find?_eq_some hfind)
      (List.find?_some (p := fun r : OpcodeRow => r.matches w) hfind)
  · cases h

theorem opcode_not_reserved (i : Instr) : opcodeReserved i.opcode = false := by
  cases i <;> rfl

/-! ## A reserved opcode (40_cursor R124) -/

theorem runCommandWord_reserved {w : Word} (s : State) (h : opcodeReserved (w.setWidth 8) = true) :
    runCommandWord w s = .next (completeReserved s) := by
  unfold runCommandWord
  split
  next i hi =>
    rw [← opcode_of_decode hi, opcode_not_reserved] at h
    cases h
  · rfl

theorem engineTurn_of_busy {s : State} (h : s.status.busy = true) :
    engineTurn s = runCommandWord (s.status.lastOp.setWidth 32) s := by
  simp only [engineTurn, commandInProgress_of_busy h]

theorem engineTurn_reserved {s : State} (hb : s.status.busy = true)
    (h : opcodeReserved s.status.lastOp = true) : engineTurn s = .next (completeReserved s) := by
  rw [engineTurn_of_busy hb]
  exact runCommandWord_reserved s (by simpa using h)

theorem regAt_cmd : regAt (0x00C#32).toNat = some .cmd := by decide

theorem hostAccess_write_cmd_idle {s : State} (v : Word) (hb : s.status.busy = false) :
    hostAccess (.write .word 0x00C#32 v) s = .next (respond .writeOk (acceptCommand v s)) := by
  rw [hostAccess_write_reg v s regAt_cmd, hostWriteReg_of_idle v (by decide) rfl hb]
  rfl

/-- Settles O7: the write is an acceptance, LAST_OP then decodes to no command, and what is left is
`raise CMD_ERROR`. -/
theorem reservedOpcodeChangesOnlyStatus : Obligations.ReservedOpcodeChangesOnlyStatus :=
  fun _ v hidle hres => ⟨_, hostAccess_write_cmd_idle v hidle, rfl, engineTurn_reserved rfl hres⟩

/-! ## Register words of natural-number arithmetic (00_scope R18) -/

theorem word_ofN_toNat (a : Word) : Word.ofN a.toNat = a := by simp [Word.ofN]

theorem word_ofN_toNat_add (a b : Word) : Word.ofN (a.toNat + b.toNat) = a + b := by
  simp [Word.ofN, BitVec.ofNat_add]

theorem word_ofN_toNat_sub {a b : Word} (h : b.toNat ≤ a.toNat) :
    Word.ofN (a.toNat - b.toNat) = a - b := by
  rw [← BitVec.toNat_sub_of_le (BitVec.le_def.mpr h), word_ofN_toNat]

/-! ## SEEK (40_cursor R120) -/

theorem exec_seek_of_le {s : State} (h : s.arg.toNat ≤ s.len.toNat) :
    exec .seek s = .next (complete .ok { startCommand .seek s with pos := s.arg }) := by
  have hbody : seekBody s.latch (startCommand .seek s) =
      complete .ok { startCommand .seek s with pos := Word.ofN s.arg.toNat } := if_neg h.not_gt
  rw [word_ofN_toNat] at hbody
  exact congrArg _ hbody

theorem exec_seek_of_lt {s : State} (h : s.len.toNat < s.arg.toNat) :
    exec .seek s = .next (complete .cmdError (startCommand .seek s)) :=
  congrArg _ (if_pos h)

/-- Settles O23: the two sides of ARG = LEN. -/
theorem seekSetsThePosition : Obligations.SeekSetsThePosition :=
  ⟨rfl, fun _ => ⟨exec_seek_of_le, exec_seek_of_lt⟩⟩

/-! ## ADVANCE (40_cursor R121) -/

/-- CONSUMED is ARG: the natural number p0 + ARG is not cut before p0 is taken from it. -/
theorem consumeTo_latch_add (s u : State) (n : Word) :
    consumeTo s.latch (s.latch.p0 + n.toNat) u = { u with pos := s.pos + n, consumed := n } := by
  have hpos : Word.ofN (s.latch.p0 + n.toNat) = s.pos + n := word_ofN_toNat_add s.pos n
  simp only [consumeTo, hpos, Nat.add_sub_cancel_left, word_ofN_toNat]

theorem exec_advance_of_le {s : State} (h : s.arg.toNat ≤ s.len.toNat - s.pos.toNat) :
    exec .advance s =
      .next (complete .ok { startCommand .advance s with pos := s.pos + s.arg, consumed := s.arg }) := by
  have hbody : advanceBody s.latch (startCommand .advance s) =
      complete .ok (consumeTo s.latch (s.latch.p0 + s.arg.toNat) (startCommand .advance s)) :=
    if_neg h.not_gt
  rw [consumeTo_latch_add] at hbody
  exact congrArg _ hbody

theorem exec_advance_of_lt {s : State} (h : s.len.toNat - s.pos.toNat < s.arg.toNat) :
    exec .advance s = .next (complete .cmdError (startCommand .advance s)) :=
  congrArg _ (if_pos h)

/-- Settles O24: the two sides of ARG = avail. -/
theorem advanceConsumesBytes : Obligations.AdvanceConsumesBytes :=
  ⟨rfl, fun _ _ => ⟨exec_advance_of_le, exec_advance_of_lt⟩⟩

/-! ## COMPACT (40_cursor R122) -/

/-- With p0 = 0 COMPACT keeps every entry of IBUF in place. -/
theorem Memory.compacted_zero {m : Memory} {len : Nat} (h : Memory.below m len) :
    Memory.compacted m 0 len = m := by
  have hkeep : ∀ c ∈ m, (if 0 ≤ c.1 ∧ c.1 < len then some (c.1 - 0, c.2) else none) = some c :=
    fun c hc => if_pos ⟨Nat.zero_le _, h c hc⟩
  rw [Memory.compacted, List.filterMap_congr hkeep, List.filterMap_some]

theorem exec_compact {s : State} (h : s.pos.toNat ≤ s.len.toNat) :
    exec .compact s =
      .next
        (complete .ok
          (cancelIterator
            { startCommand .compact s with
              ibuf := Memory.compacted s.ibuf s.pos.toNat s.len.toNat
              len := s.len - s.pos
              pos := 0#32 })) := by
  rw [← word_ofN_toNat_sub h]
  rfl

/-- Settles O25: the frame from `exec_compact`, the moved bytes index by index, and at POS = 0 the same IBUF, since
the invariant lists no entry at or above LEN. -/
theorem compactMovesTheUnconsumedBytes : Obligations.CompactMovesTheUnconsumedBytes := by
  refine ⟨rfl, fun s hinv => ⟨_, exec_compact hinv.pos_le_len, rfl, ?_, ?_⟩⟩
  · exact fun k hk => Memory.read_compacted s.ibuf hk
  · intro hpos k
    have hibuf : Memory.compacted s.ibuf s.pos.toNat s.len.toNat = s.ibuf := by
      rw [hpos]; exact Memory.compacted_zero hinv.mem_below
    exact congrArg (Memory.read · k) hibuf

end Sys2Proof.Machine
end

section
/-! Proof of the family 42_adts (O31): the sync search, the header at a sync word, and ADTS_NEXT branch by branch. -/

namespace Sys2Proof.Machine

/-! ## The sync search (30_encoding R89, 42_adts R151) -/

theorem top_nibble_eq_ones_iff {b : Byte} : b.extractLsb 7 4 = 0xF#4 ↔ b.toNat / 16 = 0xF := by
  have hquot : b.toNat / 16 < 16 := by omega
  rw [← BitVec.toNat_inj, BitVec.extractLsb_toNat, Nat.shiftRight_eq_div_pow, Nat.mod_eq_of_lt hquot]
  rfl

theorem syncAt_eq_some_iff {m : Memory} {len i : Nat} : syncAt m len i = some () ↔ SyncWordAt m len i := by
  simp only [syncAt, SyncWordAt, top_nibble_eq_ones_iff, ite_eq_left_iff, reduceCtorEq, imp_false,
    Decidable.not_not]

theorem syncAt_eq_none_iff {m : Memory} {len i : Nat} : syncAt m len i = none ↔ ¬ SyncWordAt m len i := by
  rw [← syncAt_eq_some_iff]
  cases syncAt m len i <;> simp

theorem firstSync_of_first {m : Memory} {len lo i : Nat} (h : FirstSyncWordAt m len lo i) :
    firstSync m len lo = some i := by
  obtain ⟨hlo, hsync, hleast⟩ := h
  have hsearch : leastSome (syncAt m len) (len - lo) lo = some (i, ()) := by
    refine (leastSome_eq_some ..).mpr ⟨hlo, ?_, syncAt_eq_some_iff.mpr hsync, ?_⟩
    · have hend : i + 1 < len := hsync.1
      omega
    · exact fun j hj hji => syncAt_eq_none_iff.mpr (hleast j hj hji)
  rw [firstSync, hsearch]
  rfl

theorem firstSync_of_none {m : Memory} {len lo : Nat} (h : ∀ i, lo ≤ i → ¬ SyncWordAt m len i) :
    firstSync m len lo = none := by
  have hsearch : leastSome (syncAt m len) (len - lo) lo = none :=
    (leastSome_eq_none ..).mpr fun j hj _ => syncAt_eq_none_iff.mpr (h j hj)
  rw [firstSync, hsearch]
  rfl

/-- From LEN on there is no sync word. -/
theorem not_syncWordAt_of_len_le {m : Memory} {len i : Nat} (h : len ≤ i) : ¬ SyncWordAt m len i :=
  fun hsync => absurd hsync.1 (by omega)

/-! ## The header at a sync word (30_encoding R87, R88) -/

theorem ofNat_adtsHeaderLen (p : Bool) : BitVec.ofNat 4 (adtsHeaderLen p) = if p then 7#4 else 9#4 := by
  cases p <;> rfl

theorem adtsHeader_eq (m : Memory) (sy : Nat) :
    adtsHeader m sy =
      { GAdts.zero.withHeader (Memory.read m (sy + 1)) (Memory.read m (sy + 2)) (Memory.read m (sy + 3))
          (Memory.read m (sy + 4)) (Memory.read m (sy + 5)) (Memory.read m (sy + 6)) with
        frameOff := Word.ofN sy
        hdrLen := if (Memory.read m (sy + 1)).getLsbD 0 then 7#4 else 9#4 } := by
  rw [← ofNat_adtsHeaderLen]
  rfl

/-- The CRC's two bytes, the first most significant (00_scope R10). -/
theorem ofNat_memRead_two (m : Memory) (i : Nat) :
    BitVec.ofNat 16 (memRead m i 2) = Memory.read m i ++ Memory.read m (i + 1) := by
  have hlt : memRead m i 2 < 2 ^ 16 := memRead_lt m i 2
  apply BitVec.eq_of_toNat_eq
  rw [BitVec.toNat_ofNat, Nat.mod_eq_of_lt hlt, BitVec.toNat_append,
    ← Nat.shiftLeft_add_eq_or_of_lt (Memory.read m (i + 1)).isLt, Nat.shiftLeft_eq]
  simp [memRead]

/-! ## From a sync word on (42_adts R150, R153, R154) -/

section FromSync
variable {l : Latch} {sy : Nat} {s : State}

theorem adtsFromSync_short (h : l.len - sy < 7) :
    adtsFromSync l sy s = shortfall l (sy - l.p0 + 7) { s with skipped := Word.ofN (sy - l.p0) } :=
  if_pos h

theorem adtsFromSync_malformed (h7 : 7 ≤ l.len - sy)
    (hfl : (adtsHeader s.ibuf sy).frameLength.toNat < adtsHeaderLen (adtsHeader s.ibuf sy).protAbsent) :
    adtsFromSync l sy s =
      complete .malformedHeader { s with skipped := Word.ofN (sy - l.p0), adts := adtsHeader s.ibuf sy } :=
  (if_neg h7.not_gt).trans (if_pos hfl)

theorem adtsFromSync_partial (h7 : 7 ≤ l.len - sy)
    (hfl : adtsHeaderLen (adtsHeader s.ibuf sy).protAbsent ≤ (adtsHeader s.ibuf sy).frameLength.toNat)
    (hend : l.len - sy < (adtsHeader s.ibuf sy).frameLength.toNat) :
    adtsFromSync l sy s =
      shortfall l (sy - l.p0 + (adtsHeader s.ibuf sy).frameLength.toNat)
        { s with skipped := Word.ofN (sy - l.p0), adts := adtsHeader s.ibuf sy } :=
  (if_neg h7.not_gt).trans ((if_neg hfl.not_gt).trans (if_pos hend))

theorem adtsFromSync_whole (h7 : 7 ≤ l.len - sy)
    (hfl : adtsHeaderLen (adtsHeader s.ibuf sy).protAbsent ≤ (adtsHeader s.ibuf sy).frameLength.toNat)
    (hend : (adtsHeader s.ibuf sy).frameLength.toNat ≤ l.len - sy) :
    adtsFromSync l sy s =
      adtsReport l sy { s with skipped := Word.ofN (sy - l.p0), adts := adtsHeader s.ibuf sy } :=
  (if_neg h7.not_gt).trans ((if_neg hfl.not_gt).trans (if_neg hend.not_gt))

end FromSync

/-- CONSUMED is SKIPPED + FRAME_LENGTH (42_adts R157). -/
theorem adtsReport_eq {l : Latch} {sy : Nat} (s : State) (h : l.p0 ≤ sy) :
    adtsReport l sy s =
      complete .ok
        { s with
          pos := Word.ofN (sy + s.adts.frameLength.toNat)
          consumed := Word.ofN (sy - l.p0 + s.adts.frameLength.toNat)
          adts :=
            { s.adts with
              crc :=
                if adtsHeaderLen s.adts.protAbsent = 9 then
                  Memory.read s.ibuf (sy + 7) ++ Memory.read s.ibuf (sy + 8)
                else s.adts.crc
              payOff := Word.ofN (sy + adtsHeaderLen s.adts.protAbsent)
              payLen := Word.ofN (s.adts.frameLength.toNat - adtsHeaderLen s.adts.protAbsent) } } := by
  rw [← Nat.sub_add_comm h, ← ofNat_memRead_two]
  rfl

/-! ## ADTS_NEXT (42_adts R150) -/

theorem adtsNextBody_of_some {l : Latch} {s : State} {sy : Nat} (h : firstSync s.ibuf l.len l.p0 = some sy) :
    adtsNextBody l s = adtsFromSync l sy s := by
  rw [adtsNextBody, h]

theorem adtsNextBody_of_none {l : Latch} {s : State} (h : firstSync s.ibuf l.len l.p0 = none) :
    adtsNextBody l s =
      complete (if l.avail = 0 then (if l.eos then .endOfStream else .needMoreData) else .noSyncWord) s := by
  rw [adtsNextBody, h]
  simp only [apply_ite (complete · s)]

theorem exec_adtsNext_of_first {s : State} {i : Nat}
    (h : FirstSyncWordAt s.ibuf s.len.toNat s.pos.toNat i) :
    exec .adtsNext s = .next (adtsFromSync s.latch i (startCommand .adtsNext s)) :=
  congrArg _ (adtsNextBody_of_some (firstSync_of_first h))

theorem exec_adtsNext_of_none {s : State}
    (h : ∀ i, s.pos.toNat ≤ i → ¬ SyncWordAt s.ibuf s.len.toNat i) :
    exec .adtsNext s =
      .next
        (complete
          (if s.latch.avail = 0 then (if s.ctrl.eos then .endOfStream else .needMoreData) else .noSyncWord)
          (startCommand .adtsNext s)) :=
  congrArg _ (adtsNextBody_of_none (firstSync_of_none h))

theorem exec_adtsNext_of_pos_eq_len {s : State} (h : s.pos = s.len) :
    exec .adtsNext s =
      .next
        (complete (if s.ctrl.eos then .endOfStream else .needMoreData) (startCommand .adtsNext s)) := by
  have havail : s.latch.avail = 0 := by
    simp [Latch.avail, State.latch, h]
  have hnone : ∀ i, s.pos.toNat ≤ i → ¬ SyncWordAt s.ibuf s.len.toNat i :=
    fun i hi => not_syncWordAt_of_len_le (h ▸ hi)
  rw [exec_adtsNext_of_none hnone, if_pos havail]

theorem latch_avail_ne_zero {s : State} (hinv : s.Inv) (h : s.pos ≠ s.len) : s.latch.avail ≠ 0 := by
  have hle : s.pos.toNat ≤ s.len.toNat := hinv.pos_le_len
  have hne : s.pos.toNat ≠ s.len.toNat := fun heq => h (BitVec.eq_of_toNat_eq heq)
  simp only [Latch.avail, State.latch]
  omega

/-- Settles O31, in the order of R150: no sync word, with nothing or something left, and the four branches from the
first sync word on; the statement's G_ADTS is `adtsHeader` by `adtsHeader_eq`. -/
theorem adtsNextFindsTheNextFrame : Obligations.AdtsNextFindsTheNextFrame := by
  refine ⟨rfl, fun s hinv => ⟨exec_adtsNext_of_pos_eq_len, fun hleft hnone => ?_, ?_⟩⟩
  · rw [exec_adtsNext_of_none hnone, if_neg (latch_avail_ne_zero hinv hleft)]
    rfl
  rintro i so hfirst rfl
  rw [exec_adtsNext_of_first hfirst]
  refine ⟨fun hshort => congrArg _ (adtsFromSync_short hshort), fun h7 => ?_⟩
  rintro a1 a2 a3 a4 a5 a6 g fl hl rfl rfl rfl rfl rfl rfl hg rfl rfl
  obtain rfl : g = adtsHeader s.ibuf i := hg.trans (adtsHeader_eq s.ibuf i).symm
  refine ⟨fun hfl => ?_, fun hfl hend => ?_, fun hfl hend => ?_⟩
  · exact congrArg _ (adtsFromSync_malformed h7 hfl)
  · exact congrArg _ (adtsFromSync_partial h7 hfl hend)
  · have hpos : s.latch.p0 ≤ i := hfirst.1
    rw [adtsFromSync_whole (l := s.latch) (s := startCommand .adtsNext s) h7 hfl hend, adtsReport_eq _ hpos]
    rfl

end Sys2Proof.Machine
end

section
/-! Proofs of the family 43_flv (O33, O39): three bytes and their number, FLV_HEADER branch by branch, and the end of
the AMF decoder. -/

namespace Sys2Proof.Machine

/-! ## Three bytes and their number (00_scope R10) -/

theorem memRead_one_eq_iff {m : Memory} {i : Nat} {b : Byte} :
    memRead m i 1 = b.toNat ↔ Memory.read m i = b := by
  simp [memRead, BitVec.toNat_inj]

theorem memRead_three_eq_iff {m : Memory} {i : Nat} {a b c : Byte} :
    memRead m i 3 = a.toNat * 256 ^ 2 + (b.toNat * 256 ^ 1 + c.toNat) ↔ bytesAt m i 3 = [a, b, c] := by
  have hb : b.toNat < 256 := b.isLt
  have hc : c.toNat < 256 := c.isLt
  rw [memRead_succ_eq_iff (by omega), memRead_succ_eq_iff (by omega), memRead_one_eq_iff]
  simp [bytesAt]

/-- The signature "FLV" (43_flv R171), byte by byte. -/
theorem memRead_eq_flvSignature_iff {m : Memory} {i : Nat} :
    memRead m i 3 = Config.flvSignature ↔ bytesAt m i 3 = [0x46#8, 0x4C#8, 0x56#8] :=
  memRead_three_eq_iff (a := 0x46#8) (b := 0x4C#8) (c := 0x56#8)

/-- The end marker (43_flv R194), byte by byte. -/
theorem memRead_eq_amfEndMarker_iff {m : Memory} {i : Nat} :
    memRead m i 3 = 0x000009 ↔ bytesAt m i 3 = [0x00#8, 0x00#8, 0x09#8] :=
  memRead_three_eq_iff (a := 0x00#8) (b := 0x00#8) (c := 0x09#8)

/-! ## FLV_HEADER (43_flv R170) -/

section FlvHeader
variable (l : Latch) (s : State)

theorem flvHeaderBody_short (h : l.avail < 9) : flvHeaderBody l s = shortfall l 9 s :=
  if_pos h

theorem flvHeaderBody_badSignature (h9 : 9 ≤ l.avail)
    (hsig : bytesAt s.ibuf l.p0 3 ≠ [0x46#8, 0x4C#8, 0x56#8]) :
    flvHeaderBody l s = complete .malformedHeader s :=
  (if_neg h9.not_gt).trans (if_pos (memRead_eq_flvSignature_iff.not.mpr hsig))

theorem flvHeaderBody_stored (h9 : 9 ≤ l.avail)
    (hsig : bytesAt s.ibuf l.p0 3 = [0x46#8, 0x4C#8, 0x56#8]) :
    flvHeaderBody l s =
      if l.avail < memRead s.ibuf (l.p0 + 5) 4 then
        shortfall l (memRead s.ibuf (l.p0 + 5) 4) (storeFlvHeader l.p0 s)
      else
        complete .ok (consumeTo l (l.p0 + memRead s.ibuf (l.p0 + 5) 4) (storeFlvHeader l.p0 s)) :=
  (if_neg h9.not_gt).trans (if_neg (not_not_intro (memRead_eq_flvSignature_iff.mpr hsig)))

theorem flvHeaderBody_partial (h9 : 9 ≤ l.avail)
    (hsig : bytesAt s.ibuf l.p0 3 = [0x46#8, 0x4C#8, 0x56#8])
    (hend : l.avail < memRead s.ibuf (l.p0 + 5) 4) :
    flvHeaderBody l s = shortfall l (memRead s.ibuf (l.p0 + 5) 4) (storeFlvHeader l.p0 s) :=
  (flvHeaderBody_stored l s h9 hsig).trans (if_pos hend)

/-- CONSUMED is data_offset: the natural number p0 + data_offset is not cut before p0 is taken from it. -/
theorem flvHeaderBody_whole (h9 : 9 ≤ l.avail)
    (hsig : bytesAt s.ibuf l.p0 3 = [0x46#8, 0x4C#8, 0x56#8])
    (hend : memRead s.ibuf (l.p0 + 5) 4 ≤ l.avail) :
    flvHeaderBody l s =
      complete .ok
        { storeFlvHeader l.p0 s with
          pos := Word.ofN (l.p0 + memRead s.ibuf (l.p0 + 5) 4)
          consumed := Word.ofN (memRead s.ibuf (l.p0 + 5) 4) } := by
  rw [flvHeaderBody_stored l s h9 hsig, if_neg hend.not_gt, consumeTo, Nat.add_sub_cancel_left]

end FlvHeader

/-- Settles O33, in the order of R170: too few bytes, a wrong signature, and with the header stored the two sides of
data_offset = avail. -/
theorem flvHeaderChecksAndSeeks : Obligations.FlvHeaderChecksAndSeeks := by
  refine ⟨rfl, fun s _ => ⟨fun hshort => ?_, fun h9 hsig => ?_, ?_⟩⟩
  · exact congrArg _ (flvHeaderBody_short s.latch (startCommand .flvHeader s) hshort)
  · exact congrArg _ (flvHeaderBody_badSignature s.latch (startCommand .flvHeader s) h9 hsig)
  rintro h9 hsig d g rfl rfl
  refine ⟨fun hend => ?_, fun hend => ?_⟩
  · exact congrArg _ (flvHeaderBody_partial s.latch (startCommand .flvHeader s) h9 hsig hend)
  · exact congrArg _ (flvHeaderBody_whole s.latch (startCommand .flvHeader s) h9 hsig hend)

/-! ## The end of the AMF decoder (43_flv R190, R194) -/

/-- Once the marker is there, only the exact length is left to decide. -/
theorem amfEnd_of_marker {m : Memory} {p n : Nat} {cur : AmfCur} (hroom : cur.k + 3 ≤ n)
    (hmark : bytesAt m (p + cur.k) 3 = [0x00#8, 0x00#8, 0x09#8]) :
    amfEnd m p n cur =
      amfStop (if cur.k + 3 ≠ n then .malformedHeader else .ok)
        { cur with k := cur.k + 3, amf := { cur.amf with endSeen := true } } := by
  have hneed : amfNeed n 3 cur = .ok cur := (amfNeed_ok_iff ..).mpr ⟨hroom, rfl⟩
  have hread : ¬ memRead m (p + cur.k) 3 ≠ 0x000009 :=
    not_not_intro (memRead_eq_amfEndMarker_iff.mpr hmark)
  simp only [amfEnd, hneed, if_neg hread]
  exact (apply_ite (amfStop · _) ..).symm

/-- Stopping in OK leaves PARTIAL as it was. -/
theorem amfStop_ok (cur : AmfCur) :
    amfStop .ok cur = (.ok, { cur with amf := { cur.amf with stopOff := Word.ofN cur.k } }) := by
  have hpartial : (cur.amf.partialDecode || ResultCode.ok != .ok) = cur.amf.partialDecode := Bool.or_false _
  rw [amfStop, hpartial]

/-- Stopping in another code sets PARTIAL. -/
theorem amfStop_of_ne_ok {c : ResultCode} (cur : AmfCur) (h : c ≠ .ok) :
    amfStop c cur =
      (c, { cur with amf := { cur.amf with stopOff := Word.ofN cur.k, partialDecode := true } }) := by
  have hpartial : (cur.amf.partialDecode || c != .ok) = true := by simp [h]
  rw [amfStop, hpartial]

/-- Settles O39: after the marker the code is chosen by k = n, and each code's stop says what PARTIAL becomes. -/
theorem amfEndTracksExactBytes : Obligations.AmfEndTracksExactBytes := by
  intro m p n cur hroom hmark
  rw [amfEnd_of_marker hroom hmark]
  constructor
  · intro hleft
    rw [if_pos hleft, amfStop_of_ne_ok _ (by decide)]
  · rintro rfl
    rw [if_neg (not_not_intro rfl), amfStop_ok]

end Sys2Proof.Machine
end

section
/-! Proofs of the family 44_rtp (O43, O44): big-endian fields of the RTP header, RTP_PARSE and TS_NEXT branch by
branch. -/

namespace Sys2Proof.Machine

/-! ## Big-endian fields, read from the last byte backwards (00_scope R10) -/

theorem memRead_snoc (m : Memory) (i n : Nat) :
    memRead m i (n + 1) = memRead m i n * 256 + (Memory.read m (i + n)).toNat := by
  induction n generalizing i with
  | zero => simp [memRead]
  | succ n ih =>
    have hidx : i + 1 + n = i + (n + 1) := by omega
    rw [memRead, ih (i + 1), hidx, memRead]
    ring

theorem ofNat_mul_add_byte (w a : Nat) (b : Byte) :
    BitVec.ofNat (w + 8) (a * 256 + b.toNat) = BitVec.ofNat w a ++ b := by
  have hlow : (a * 256 + b.toNat) % 2 ^ 8 = b.toNat := by omega
  have hhigh : (a * 256 + b.toNat) / 2 ^ 8 = a := by omega
  apply BitVec.eq_of_toNat_eq
  rw [BitVec.toNat_ofNat, BitVec.toNat_append, BitVec.toNat_ofNat, ← Nat.shiftLeft_add_eq_or_of_lt b.isLt,
    Nat.shiftLeft_eq, Nat.pow_add, Nat.mul_comm (2 ^ w), Nat.mod_mul, hlow, hhigh]
  ring

theorem ofNat_memRead_snoc (w : Nat) (m : Memory) (i n : Nat) :
    BitVec.ofNat (w + 8) (memRead m i (n + 1)) =
      BitVec.ofNat w (memRead m i n) ++ Memory.read m (i + n) := by
  rw [memRead_snoc, ofNat_mul_add_byte]

theorem word_ofN_memRead_four (m : Memory) (i : Nat) :
    Word.ofN (memRead m i 4) =
      Memory.read m i ++ Memory.read m (i + 1) ++ Memory.read m (i + 2) ++ Memory.read m (i + 3) := by
  rw [← ofNat_memRead_two, ← ofNat_memRead_snoc 16 m i 2, ← ofNat_memRead_snoc 24 m i 3]

/-! ## The RTP fixed header (30_encoding R95, 44_rtp R211) -/

theorem rtpHeader_eq (m : Memory) (p0 n : Nat) :
    rtpHeader m p0 n =
      { GRtp.zero.withFlags (Memory.read m p0) (Memory.read m (p0 + 1)) with
        seq := Memory.read m (p0 + 2) ++ Memory.read m (p0 + 3)
        timestamp :=
          Memory.read m (p0 + 4) ++ Memory.read m (p0 + 5) ++ Memory.read m (p0 + 6) ++ Memory.read m (p0 + 7)
        ssrc :=
          Memory.read m (p0 + 8) ++ Memory.read m (p0 + 9) ++ Memory.read m (p0 + 10) ++ Memory.read m (p0 + 11)
        dgramOff := Word.ofN p0
        payOff := Word.ofN (p0 + 12)
        payLen := Word.ofN (n - 12) } := by
  rw [rtpHeader, ofNat_memRead_two, word_ofN_memRead_four, word_ofN_memRead_four]

theorem rtpHeader_payloadType_toNat (m : Memory) (p0 n : Nat) :
    (rtpHeader m p0 n).payloadType.toNat = (Memory.read m (p0 + 1)).toNat % 128 :=
  BitVec.extractLsb_toNat ..

/-! ## RTP_PARSE (44_rtp R210, R212) -/

section RtpParse
variable (l : Latch) (s : State)

/-- CONSUMED is the datagram's length: the natural number p0 + n is not cut before p0 is taken from it. -/
theorem consumeTo_add (n : Nat) :
    consumeTo l (l.p0 + n) s = { s with pos := Word.ofN (l.p0 + n), consumed := Word.ofN n } := by
  rw [consumeTo, Nat.add_sub_cancel_left]

/-- The datagram decoded and consumed, the stride scan not armed: what both payload-type branches end from. -/
def storeDatagram : State :=
  { s with
    pos := Word.ofN (l.p0 + l.arg)
    consumed := Word.ofN l.arg
    rtp := rtpHeader s.ibuf l.p0 l.arg
    tsIter := .zero }

theorem rtpParseBody_partial (h : l.avail < l.arg) :
    rtpParseBody l s = shortfall l l.arg (cancelIterator s) :=
  if_pos h

theorem rtpParseBody_tooShort (hwhole : l.arg ≤ l.avail) (h : l.arg < 12) :
    rtpParseBody l s =
      complete .truncated
        { cancelIterator s with pos := Word.ofN (l.p0 + l.arg), consumed := Word.ofN l.arg } := by
  rw [← consumeTo_add]
  exact (if_neg hwhole.not_gt).trans (if_pos h)

theorem rtpParseBody_parsed (hwhole : l.arg ≤ l.avail) (h12 : 12 ≤ l.arg) :
    rtpParseBody l s =
      if (Memory.read s.ibuf (l.p0 + 1)).toNat % 128 = 33 then
        complete .ok (armStrides l.p0 l.arg (storeDatagram l s))
      else complete .ok (storeDatagram l s) := by
  have hstore : consumeTo l (l.p0 + l.arg) { cancelIterator s with rtp := rtpHeader s.ibuf l.p0 l.arg } =
      storeDatagram l s := consumeTo_add ..
  rw [← hstore, ← rtpHeader_payloadType_toNat s.ibuf l.p0 l.arg]
  exact (if_neg hwhole.not_gt).trans (if_neg h12.not_gt)

theorem rtpParseBody_noStrides (hwhole : l.arg ≤ l.avail) (h12 : 12 ≤ l.arg)
    (hpt : (Memory.read s.ibuf (l.p0 + 1)).toNat % 128 ≠ 33) :
    rtpParseBody l s = complete .ok (storeDatagram l s) :=
  (rtpParseBody_parsed l s hwhole h12).trans (if_neg hpt)

theorem rtpParseBody_strides (hwhole : l.arg ≤ l.avail) (h12 : 12 ≤ l.arg)
    (hpt : (Memory.read s.ibuf (l.p0 + 1)).toNat % 128 = 33) :
    rtpParseBody l s = complete .ok (armStrides l.p0 l.arg (storeDatagram l s)) :=
  (rtpParseBody_parsed l s hwhole h12).trans (if_pos hpt)

end RtpParse

/-- Settles O43, in the order of R210: a datagram not fully appended, one too short for the header, and the two sides
of payload type 33; the statement's G_RTP is `rtpHeader` by `rtpHeader_eq`. -/
theorem rtpParseDecodesTheDatagram : Obligations.RtpParseDecodesTheDatagram := by
  refine ⟨rfl, ?_⟩
  rintro s - n p0 rfl rfl
  refine ⟨fun hpartial => ?_, fun hwhole hshort => ?_, ?_⟩
  · exact congrArg _ (rtpParseBody_partial s.latch (startCommand .rtpParse s) hpartial)
  · exact congrArg _ (rtpParseBody_tooShort s.latch (startCommand .rtpParse s) hwhole hshort)
  rintro hwhole h12 r0 r1 g c rfl rfl hg rfl
  obtain rfl : g = rtpHeader s.ibuf s.pos.toNat s.arg.toNat := hg.trans (rtpHeader_eq ..).symm
  refine ⟨fun hpt => ?_, fun hpt => ?_⟩
  · exact congrArg _ (rtpParseBody_noStrides s.latch (startCommand .rtpParse s) hwhole h12 hpt)
  · exact congrArg _ (rtpParseBody_strides s.latch (startCommand .rtpParse s) hwhole h12 hpt)

/-! ## TS_NEXT (44_rtp R220, R221) -/

/-- The fields TS_NEXT stores of a stride before it tests the sync byte. -/
def storeStride (s : State) : State :=
  { s with
    ts :=
      { s.ts with
        pktOff := Word.ofN s.tsIter.nextOff.toNat
        index := s.tsIter.nextIndex.setWidth 32
        syncByte := Memory.read s.ibuf s.tsIter.nextOff.toNat } }

section TsNext
variable {s : State}

/-- NEXT_INDEX counts modulo 2^16 (44_rtp R222 (e)). -/
theorem tsReport_of_active (x : Nat) (h : s.tsIter.active = true) :
    tsReport x s =
      complete .ok
        { s with
          ts :=
            { s.ts.withHeader (Memory.read s.ibuf (x + 1)) (Memory.read s.ibuf (x + 2))
                (Memory.read s.ibuf (x + 3)) with
              payOff := Word.ofN (x + 4)
              payLen := 184#32 }
          tsIter :=
            ⟨true, BitVec.ofNat 16 (s.tsIter.nextIndex.toNat + 1), Word.ofN (x + 188), s.tsIter.endOff⟩ } := by
  have hindex : BitVec.ofNat 16 (s.tsIter.nextIndex.toNat + 1) = s.tsIter.nextIndex + 1#16 := by
    rw [BitVec.ofNat_add, BitVec.ofNat_toNat, BitVec.setWidth_eq]
  rw [hindex, ← h]
  rfl

theorem tsNextBody_idle (h : s.tsIter.active = false) : tsNextBody s = complete .endOfStream s :=
  if_neg (Bool.eq_false_iff.mp h)

theorem tsNextBody_exhausted (h : s.tsIter.active = true)
    (hend : s.tsIter.endOff.toNat - s.tsIter.nextOff.toNat < 188) :
    tsNextBody s = complete .endOfStream (cancelIterator s) :=
  (if_pos h).trans (if_pos hend)

theorem tsNextBody_stride (h : s.tsIter.active = true)
    (hroom : 188 ≤ s.tsIter.endOff.toNat - s.tsIter.nextOff.toNat) :
    tsNextBody s =
      if Memory.read s.ibuf s.tsIter.nextOff.toNat = 0x47#8 then
        tsReport s.tsIter.nextOff.toNat (storeStride s)
      else complete .malformedHeader (cancelIterator (storeStride s)) := by
  rw [storeStride, word_ofN_toNat]
  exact (if_pos h).trans (if_neg hroom.not_gt)

theorem tsNextBody_noSync (h : s.tsIter.active = true)
    (hroom : 188 ≤ s.tsIter.endOff.toNat - s.tsIter.nextOff.toNat)
    (hsync : Memory.read s.ibuf s.tsIter.nextOff.toNat ≠ 0x47#8) :
    tsNextBody s = complete .malformedHeader (cancelIterator (storeStride s)) :=
  (tsNextBody_stride h hroom).trans (if_neg hsync)

theorem tsNextBody_packet (h : s.tsIter.active = true)
    (hroom : 188 ≤ s.tsIter.endOff.toNat - s.tsIter.nextOff.toNat)
    (hsync : Memory.read s.ibuf s.tsIter.nextOff.toNat = 0x47#8) :
    tsNextBody s = tsReport s.tsIter.nextOff.toNat (storeStride s) :=
  (tsNextBody_stride h hroom).trans (if_pos hsync)

end TsNext

/-- Settles O44, in the order of R220: no armed iterator, no whole stride left, and the two outcomes of the sync
test. -/
theorem tsNextReportsTheNextStride : Obligations.TsNextReportsTheNextStride := by
  refine ⟨rfl, ?_⟩
  rintro s - x rfl
  refine ⟨fun hidle => ?_, fun hactive hend => ?_, fun hactive hroom hsync => ?_, ?_⟩
  · exact congrArg _ (tsNextBody_idle (s := startCommand .tsNext s) hidle)
  · exact congrArg _ (tsNextBody_exhausted (s := startCommand .tsNext s) hactive hend)
  · exact congrArg _ (tsNextBody_noSync (s := startCommand .tsNext s) hactive hroom hsync)
  rintro hactive hroom hsync m1 m2 m3 rfl rfl rfl
  have hbody := tsNextBody_packet (s := startCommand .tsNext s) hactive hroom hsync
  rw [tsReport_of_active (s := storeStride (startCommand .tsNext s)) _ hactive] at hbody
  rw [← hsync]
  exact congrArg _ hbody

end Sys2Proof.Machine
end

section
/-! Proofs of the encoding family (O1, O2, O3, O4): decoding reads bits 7:0 alone, names each command by its opcode
and refuses the rest, and the engine's turn runs what LAST_OP decodes to. -/

namespace Sys2Proof.Machine

/-! ## Decoding reads bits 7:0 alone (30_encoding R80, R84) -/

theorem and_low_bits (w : Word) {k : Nat} (hk : k ≤ 32) :
    w &&& BitVec.ofNat 32 (2 ^ k - 1) = (w.setWidth k).setWidth 32 := by
  have hle : 2 ^ k ≤ 2 ^ 32 := Nat.pow_le_pow_right (by decide) hk
  have hpos : 0 < 2 ^ k := by positivity
  have hlow : w.toNat % 2 ^ k < 2 ^ k := Nat.mod_lt _ hpos
  apply BitVec.eq_of_toNat_eq
  rw [BitVec.toNat_and, BitVec.toNat_ofNat, Nat.mod_eq_of_lt (by omega), Nat.and_two_pow_sub_one_eq_mod,
    BitVec.toNat_setWidth, BitVec.toNat_setWidth, Nat.mod_eq_of_lt (hlow.trans_le hle)]

theorem and_low_byte (w : Word) : w &&& 0x000000FF#32 = (w.setWidth 8).setWidth 32 :=
  and_low_bits w (k := 8) (by decide)

theorem row_matches_iff {r : OpcodeRow} {w : Word} (hr : r ∈ opcodeTable) :
    r.matches w = true ↔ r.instr.opcode = w.setWidth 8 := by
  refine ⟨opcode_of_row_matches hr, fun h => ?_⟩
  obtain ⟨hmask, hpattern⟩ := opcodeTable_row hr
  simp only [OpcodeRow.matches, hmask, hpattern, h, and_low_byte, beq_self_eq_true]

theorem find_row_congr {w w' : Word} (h : w.setWidth 8 = w'.setWidth 8) :
    opcodeTable.find? (·.matches w) = opcodeTable.find? (·.matches w') :=
  List.find?_congr fun r hr => by
    rw [Bool.eq_iff_iff, row_matches_iff hr, row_matches_iff hr, h]

theorem decode_congr {w w' : Word} (h : w.setWidth 8 = w'.setWidth 8) : decode w = decode w' := by
  simp only [decode, find_row_congr h, h]

theorem decode_opcode (i : Instr) : decode (i.opcode.setWidth 32) = .ok i := by
  cases i <;> rfl

/-- A word decodes to the command whose opcode stands in its bits 7:0. -/
theorem decode_eq_ok_iff {w : Word} {i : Instr} : decode w = .ok i ↔ i.opcode = w.setWidth 8 := by
  refine ⟨opcode_of_decode, fun h => ?_⟩
  rw [← decode_opcode i]
  exact decode_congr (by simp [h])

theorem opcode_injective {i j : Instr} (h : i.opcode = j.opcode) : i = j := by
  have hdec : decode (i.opcode.setWidth 32) = .ok j := h ▸ decode_opcode j
  exact Except.ok.inj ((decode_opcode i).symm.trans hdec)

theorem decode_error_eq {w : Word} {e : DecodeError} (h : decode w = .error e) :
    e = .reservedOpcode (w.setWidth 8) := by
  unfold decode at h
  split at h
  · cases h
  · exact (Except.error.inj h).symm

theorem setWidth_encodeWith (ignored : BitVec 24) (i : Instr) :
    (encodeWith ignored i).setWidth 8 = i.opcode :=
  BitVec.setWidth_append_eq_right

theorem decode_encodeWith (ignored : BitVec 24) (i : Instr) : decode (encodeWith ignored i) = .ok i :=
  decode_eq_ok_iff.mpr (setWidth_encodeWith ignored i).symm

theorem setWidth_encode (i : Instr) : (encode i).setWidth 8 = i.opcode := setWidth_encodeWith 0#24 i

/-- The two parts of a word put together again. -/
theorem upper_append_low (w : Word) : w.extractLsb 31 8 ++ w.setWidth 8 = w := by
  apply BitVec.eq_of_toNat_eq
  rw [BitVec.toNat_append, ← Nat.shiftLeft_add_eq_or_of_lt (w.setWidth 8).isLt, Nat.shiftLeft_eq,
    BitVec.extractLsb_toNat, Nat.shiftRight_eq_div_pow, BitVec.toNat_setWidth]
  omega

/-- Settles O1: decoding is by the opcode in bits 7:0 (`decode_eq_ok_iff`), which is what encoding puts there. -/
theorem decodeInvertsEncodeOnEveryWord : Obligations.DecodeInvertsEncodeOnEveryWord := by
  refine ⟨fun i ignored _ => decode_encodeWith ignored i, fun w i h => ?_, fun _ _ => decode_congr⟩
  rw [encodeWith, opcode_of_decode h, upper_append_low]

/-! ## Every opcode (30_encoding R82) -/

/-- What R82 does not reserve is the opcode of a row of R81. -/
theorem exists_instr_of_not_reserved :
    ∀ op : Byte, opcodeReserved op = false → op ∈ opcodeTable.map (·.instr.opcode) := by
  decide

theorem decode_of_reserved {w : Word} (h : opcodeReserved (w.setWidth 8) = true) :
    decode w = .error (.reservedOpcode (w.setWidth 8)) := by
  cases hdec : decode w with
  | ok i => rw [← opcode_of_decode hdec, opcode_not_reserved] at h; cases h
  | error e => rw [decode_error_eq hdec]

theorem decode_of_not_reserved {w : Word} (h : opcodeReserved (w.setWidth 8) = false) :
    ∃ i, decode w = .ok i := by
  obtain ⟨r, -, hr⟩ := List.mem_map.mp (exists_instr_of_not_reserved _ h)
  exact ⟨r.instr, decode_eq_ok_iff.mpr hr⟩

/-- Settles O2: a reserved opcode is no command's, any other is one row's, and opcodes are distinct. -/
theorem everyOpcodeIsACommandOrReserved : Obligations.EveryOpcodeIsACommandOrReserved := by
  intro w
  cases h : opcodeReserved (w.setWidth 8) with
  | true => exact .inl ⟨rfl, decode_of_reserved h⟩
  | false =>
    obtain ⟨i, hi⟩ := decode_of_not_reserved h
    have hop : i.opcode = w.setWidth 8 := opcode_of_decode hi
    exact .inr ⟨rfl, i, hi, hop, fun j hj => opcode_injective (hj.trans hop.symm)⟩

/-- Settles O3: each word's bits 7:0 are the opcode of its command, or 0. -/
theorem writtenOutWordsDecode : Obligations.WrittenOutWordsDecode :=
  ⟨decode_eq_ok_iff.mpr rfl, decode_eq_ok_iff.mpr rfl, decode_eq_ok_iff.mpr rfl, decode_eq_ok_iff.mpr rfl,
    decode_eq_ok_iff.mpr rfl, decode_of_reserved rfl⟩

/-! ## The engine's turn (60_exceptions R233, log 2) -/

theorem exec_unique {i : Instr} {s t t' : State} (h : exec i s = .next t) (h' : exec i s = .next t') : t = t' :=
  Host.Outcome.next.inj (h.symm.trans h')

theorem runCommandWord_of_decode {w : Word} {i : Instr} (s : State) (h : decode w = .ok i) :
    runCommandWord w s = exec i s := by
  simp only [runCommandWord, h]

theorem engineTurn_of_running {s : State} {i : Instr} (h : Running s i) : engineTurn s = exec i s := by
  obtain ⟨hbusy, hdec⟩ := h
  rw [engineTurn_of_busy hbusy, runCommandWord_of_decode s hdec]

theorem engineTurn_of_idle {s : State} (h : s.status.busy = false) : engineTurn s = .next s := by
  simp only [engineTurn, commandInProgress_of_idle h]

/-- The state on which the engine has its turn: an engine input at the head of the queue is used up. -/
def takeEngineInput (s : State) : State :=
  if s.inputs.head? = some .engine then { s with inputs := s.inputs.tail } else s

theorem takeEngineInput_cases (s : State) :
    takeEngineInput s = s ∨ takeEngineInput s = { s with inputs := s.inputs.tail } := by
  unfold takeEngineInput
  split
  · exact .inr rfl
  · exact .inl rfl

theorem step_of_engineTurnNext {s : State} (h : EngineTurnNext s) :
    step s = engineTurn (takeEngineInput s) := by
  unfold takeEngineInput step
  rcases h with hin | hin | ⟨hin, hbusy⟩
  · simp [hin]
  · obtain ⟨rest, hin⟩ := List.head?_eq_some_iff.mp hin
    simp [hin]
  · obtain ⟨rest, hin⟩ := List.head?_eq_some_iff.mp hin
    simp [hin, hbusy]

theorem takeEngineInput_running {s : State} {i : Instr} (h : Running s i) : Running (takeEngineInput s) i := by
  obtain he | he := takeEngineInput_cases s <;> rw [he] <;> exact h

/-- Settles O4: the step is the engine's turn, and the turn runs the command LAST_OP decodes to. -/
theorem stepRunsTheDecodedCommand : Obligations.StepRunsTheDecodedCommand := fun s i hrun hturn => by
  rw [step_of_engineTurnNext hturn]
  exact engineTurn_of_running (takeEngineInput_running hrun)

end Sys2Proof.Machine
end

section
/-! Proofs about register words (O8, O19): a field of a composed word is the part that stands at its bits. -/

namespace Sys2Proof.Machine

/-! ## Fields of a concatenation. The type of `x ++ y` is left open: register words state it as `Word`. -/

@[simp] theorem getLsbD_concat {n m : Nat} (x : BitVec n) (y : BitVec m) (i : Nat) :
    BitVec.getLsbD (HAppend.hAppend (γ := no_index (BitVec (n + m))) x y) i =
      if i < m then y.getLsbD i else x.getLsbD (i - m) :=
  BitVec.getLsbD_append

@[simp] theorem extractLsb_concat_low {n m start len : Nat} (x : BitVec n) (y : BitVec m)
    (h : start + len ≤ m) :
    BitVec.extractLsb' start len (HAppend.hAppend (γ := no_index (BitVec (n + m))) x y) =
      y.extractLsb' start len :=
  BitVec.extractLsb'_append_eq_of_add_le h

@[simp] theorem extractLsb_concat_high {n m start len : Nat} (x : BitVec n) (y : BitVec m) (h : m ≤ start) :
    BitVec.extractLsb' start len (HAppend.hAppend (γ := no_index (BitVec (n + m))) x y) =
      x.extractLsb' (start - m) len :=
  BitVec.extractLsb'_append_eq_of_le h

/-- Settles O19, word by word: each field is read off the concatenation that its register word is. -/
theorem resultWordsHoldTheirFields : Obligations.ResultWordsHoldTheirFields := by
  refine ⟨fun c => ?_, fun g => ?_, fun r => ?_, rfl, fun g => ?_, fun g => ?_, fun g => ?_, fun g => ?_,
    fun g => ?_, fun g => ?_, fun t => ?_⟩
  · simp [Ctrl.toWord, BitVec.extractLsb, -BitVec.getLsbD_eq_getElem]
  · simp [GFlvh.hdrWord, BitVec.extractLsb]
  · simp [MetaRow.infoWord, BitVec.extractLsb, -BitVec.getLsbD_eq_getElem]
  · simp [GNal.infoWord, BitVec.extractLsb, -BitVec.getLsbD_eq_getElem]
  · simp [GAdts.hdrWord, GAdts.lenWord, BitVec.extractLsb, -BitVec.getLsbD_eq_getElem]
  · simp [GFlvt.tagWord, BitVec.extractLsb, -BitVec.getLsbD_eq_getElem]
  · simp [GAmf.statusWord, BitVec.extractLsb, -BitVec.getLsbD_eq_getElem]
  · simp [GRtp.hdrWord, BitVec.extractLsb, -BitVec.getLsbD_eq_getElem]
  · simp [GTs.hdrWord, BitVec.extractLsb, -BitVec.getLsbD_eq_getElem]
  · simp [TsIter.word, BitVec.extractLsb, -BitVec.getLsbD_eq_getElem]

theorem status_toWord_flags (st : Status) :
    st.toWord.getLsbD 0 = st.busy ∧ st.toWord.getLsbD 1 = st.done ∧
      st.toWord.getLsbD 2 = st.overflow ∧ st.toWord.getLsbD 3 = st.busyWrite := by
  simp [Status.toWord, -BitVec.getLsbD_eq_getElem]

theorem status_toWord_fields (st : Status) :
    st.toWord.extractLsb 7 4 = 0#4 ∧ st.toWord.extractLsb 11 8 = st.code.toBits ∧
      st.toWord.extractLsb 15 12 = 0#4 ∧ st.toWord.extractLsb 23 16 = st.lastOp ∧
      st.toWord.extractLsb 31 24 = 0#8 := by
  simp [Status.toWord, BitVec.extractLsb]

theorem regAt_status : regAt (0x008#32).toNat = some .status := by decide

theorem hostAccess_write_status (s : State) (v : Word) :
    hostAccess (.write .word 0x008#32 v) s =
      .next { s with response := .writeOk, status := s.status.writeOneToClear v } :=
  hostAccess_write_reg v s regAt_status

/-- Settles O8: the write's effect, the numbers of CODE, and the STATUS word field by field. -/
theorem statusWriteClearsOnlyOnes : Obligations.StatusWriteClearsOnlyOnes := by
  refine ⟨hostAccess_write_status, rfl, fun st => ?_⟩
  obtain ⟨hbusy, hdone, hoverflow, hbusyWrite⟩ := status_toWord_flags st
  exact ⟨hbusy, hdone, hoverflow, hbusyWrite, status_toWord_fields st⟩

end Sys2Proof.Machine
end

section
/-! Proofs about the register map and the host's accesses (O6, O10, O11, O12, O13, O15, O18, O20, O58). -/

namespace Sys2Proof.Machine

/-! ## The register map (20_memory R61) -/

theorem regAt_offset (r : Reg) : regAt r.offset = some r := by
  cases r with
  | metaInfo i | metaHi i | metaLo i | metaReserved i => revert i; decide
  | _ => rfl

theorem mem_allRegs (r : Reg) : r ∈ allRegs := List.mem_of_find?_eq_some (regAt_offset r)

/-- Settles O18: each register is found at its offset, and the search answers a register of that offset. -/
theorem registerMapIsOneToOne : Obligations.RegisterMapIsOneToOne :=
  ⟨fun r => ⟨regAt_offset r, reg_offset_aligned r, reg_offset_le r⟩, fun _ _ => offset_of_regAt⟩

/-- A register's offset fits the bus word. -/
theorem word_offset_toNat (r : Reg) : (Word.ofN r.offset).toNat = r.offset := by
  have hle := reg_offset_le r
  rw [BitVec.toNat_ofNat, Nat.mod_eq_of_lt (by omega)]

theorem regAt_word_offset (r : Reg) : regAt (Word.ofN r.offset).toNat = some r := by
  rw [word_offset_toNat, regAt_offset]

theorem hostAccess_read_offset (r : Reg) (s : State) :
    hostAccess (.read .word (Word.ofN r.offset)) s = .next (hostReadReg r s) :=
  hostAccess_read_reg s (regAt_word_offset r)

theorem hostAccess_write_offset (r : Reg) (v : Word) (s : State) :
    hostAccess (.write .word (Word.ofN r.offset) v) s = .next (respond .writeOk (hostWriteReg r v s)) :=
  hostAccess_write_reg v s (regAt_word_offset r)

theorem busTarget_offset (cap : Nat) (r : Reg) : busTarget cap r.offset = .reg r :=
  busTarget_of_regAt cap (regAt_offset r)

theorem regAt_eq_none_of_inWindow {cap off : Nat} (h : InWindow cap off) : regAt off = none := by
  obtain ⟨hbase, -⟩ := h
  simp only [Config.winBase] at hbase
  exact regAt_eq_none_of_gt (by omega)

theorem busTarget_of_inWindow {cap off : Nat} (h : InWindow cap off) :
    busTarget cap off = .window ((off - Config.winBase) / 4) := by
  simp only [busTarget, regAt_eq_none_of_inWindow h]
  exact if_pos h

theorem inWindow_of_busTarget {cap off i : Nat} (h : busTarget cap off = .window i) : InWindow cap off := by
  unfold busTarget at h
  split at h
  · cases h
  · split at h
    next hin => exact hin
    · cases h

theorem not_inWindow_offset (cap : Nat) (r : Reg) : ¬ InWindow cap r.offset := fun h => by
  rw [InWindow, Config.winBase] at h
  have hle := reg_offset_le r
  omega

/-! ## Reads (10_state R42 (d), 70_reset_and_hazards R262) -/

theorem hostAccess_read_idle {s : State} (r : Reg) (h : s.status.busy = false) :
    hostAccess (.read .word (Word.ofN r.offset)) s = .next { s with response := .readData (readReg s r) } := by
  rw [hostAccess_read_offset, hostReadReg_of_idle r h]
  rfl

theorem hostAccess_read_keeps_block {s t : State} {w : AccessWidth} {off : Word}
    (h : hostAccess (.read w off) s = .next t) :
    t = { s with response := t.response, freeCount := t.freeCount } := by
  obtain ⟨_, _, _, -, rfl⟩ | ⟨_, _, _, hwrite, -, -⟩ := hostAccess_next_cases h
  · rfl
  · cases hwrite

/-- Settles O12. -/
theorem registerReadsHaveNoSideEffect : Obligations.RegisterReadsHaveNoSideEffect :=
  ⟨fun _ r => hostAccess_read_idle r, fun _ _ _ _ => hostAccess_read_keeps_block⟩

/-- The map written out is each register's offset and word, in the order of `allRegs`. -/
theorem registerMap_eq (s : State) : registerMap s = allRegs.map fun r => (r.offset, r, readReg s r) := by
  rw [allRegs, List.map_append, List.map_flatMap]
  rfl

/-- Settles O58: by `registerMap_eq` a row of the map is a register with its offset and its word. -/
theorem eachOffsetReadsItsField : Obligations.EachOffsetReadsItsField := by
  intro s
  rw [registerMap_eq]
  refine ⟨fun e he => ?_, fun r => ⟨_, _, List.mem_map.mpr ⟨r, mem_allRegs r, rfl⟩⟩⟩
  obtain ⟨r, -, rfl⟩ := List.mem_map.mp he
  exact ⟨rfl, hostAccess_read_idle r⟩

theorem hostReadReg_readable {s : State} {r : Reg} (h : regReadableWhileBusy r = true) :
    hostReadReg r s = respond (.readData (readReg s r)) s := by
  simp [hostReadReg, h]

theorem hostReadReg_unspecified {s : State} {r : Reg} (hb : s.status.busy = true)
    (h : regReadableWhileBusy r = false) : hostReadReg r s = respondFree s := by
  simp [hostReadReg, h, hb]

theorem not_readable_of_not_mem {r : Reg} (h : r ∉ [Reg.status, .id, .cap]) :
    regReadableWhileBusy r = false := by
  revert h
  cases r <;> simp [regReadableWhileBusy]

theorem hostAccess_read_inWindow_busy {s : State} {off : Word} (halign : off.toNat % 4 = 0)
    (hwin : InWindow s.cap.toNat off.toNat) (hb : s.status.busy = true) :
    hostAccess (.read .word off) s = .next (respondFree s) := by
  rw [hostAccess_read_word s halign, hostRead, busTarget_of_inWindow hwin]
  exact congrArg _ (hostReadWindow_of_busy _ hb)

/-- Settles O11: STATUS, ID and CAP are the readable registers; every other read answers the free value. -/
theorem readsWhileBusyAreUnspecified : Obligations.ReadsWhileBusyAreUnspecified := by
  intro s hinv hbusy
  obtain ⟨hbit0, hbit1, -, -⟩ := status_toWord_flags s.status
  refine ⟨⟨_, ?_, rfl, hbit0.trans hbusy, hbit1.trans (hinv.busy_not_done hbusy)⟩, ?_, ?_, fun r hr => ?_,
    fun off halign hwin => ?_⟩
  · rw [hostAccess_read_offset, hostReadReg_readable rfl]; rfl
  · rw [hostAccess_read_offset, hostReadReg_readable rfl]; rfl
  · rw [hostAccess_read_offset, hostReadReg_readable rfl]; rfl
  · exact ⟨_, by rw [hostAccess_read_offset, hostReadReg_unspecified hbusy (not_readable_of_not_mem hr)]; rfl⟩
  · exact ⟨_, hostAccess_read_inWindow_busy halign hwin hbusy⟩

/-! ## Writes (10_state R22 to R25, R35, 70_reset_and_hazards R261) -/

theorem hostAccess_write_busy {s : State} {r : Reg} (v : Word) (hs : r ≠ .status)
    (hr : regWritable r = true) (hb : s.status.busy = true) :
    hostAccess (.write .word (Word.ofN r.offset) v) s =
      .next { s with response := .writeOk, status := { s.status with busyWrite := true } } := by
  rw [hostAccess_write_offset, hostWriteReg_of_busy v hs hr hb]
  rfl

theorem hostAccess_write_idle {s : State} {r : Reg} (v : Word) (hs : r ≠ .status)
    (hr : regWritable r = true) (hb : s.status.busy = false) :
    hostAccess (.write .word (Word.ofN r.offset) v) s = .next (respond .writeOk (writeReg r v s)) := by
  rw [hostAccess_write_offset, hostWriteReg_of_idle v hs hr hb]

theorem hostWriteReg_readOnly {r : Reg} (h : r ∉ [Reg.status, .ctrl, .arg, .cmd, .dataIn, .flvPrevValid, .flvPrevDs])
    (v : Word) (s : State) : hostWriteReg r v s = s := by
  have hro : r ≠ .status ∧ regWritable r = false := by
    revert h
    cases r <;> simp [regWritable]
  simp [hostWriteReg, hro]

theorem hostAccess_write_readOnly {r : Reg}
    (h : r ∉ [Reg.status, .ctrl, .arg, .cmd, .dataIn, .flvPrevValid, .flvPrevDs]) (v : Word) (s : State) :
    hostAccess (.write .word (Word.ofN r.offset) v) s = .next { s with response := .writeOk } := by
  rw [hostAccess_write_offset, hostWriteReg_readOnly h]
  rfl

theorem hostAccess_write_inWindow {s : State} {off : Word} (v : Word) (halign : off.toNat % 4 = 0)
    (hwin : InWindow s.cap.toNat off.toNat) :
    hostAccess (.write .word off v) s = .fault (.busError .windowWrite) := by
  rw [hostAccess_write_word v s halign, hostWrite, busTarget_of_inWindow hwin]

/-- Settles O10: STATUS, the six writable registers, the read-only ones and the window. -/
theorem writesWhileBusyAreRefused : Obligations.WritesWhileBusyAreRefused := by
  intro s v
  refine ⟨fun _ => hostAccess_write_status s v, fun r hr hbusy => ?_,
    fun r hr => hostAccess_write_readOnly hr v s, fun off => hostAccess_write_inWindow v⟩
  have hwritable : r ≠ .status ∧ regWritable r = true := by
    revert r
    decide
  exact hostAccess_write_busy v hwritable.1 hwritable.2 hbusy

/-! A defined field read back is the written word under the field's mask (10_state R22, R35). -/

theorem ctrl_ofWord_toWord (v : Word) : (Ctrl.ofWord v).toWord = v &&& 0x3#32 := by
  rw [show (0x3#32 : Word) = BitVec.ofNat 32 (2 ^ 2 - 1) from rfl, and_low_bits v (by decide)]
  refine BitVec.eq_of_getLsbD_eq fun i hi => ?_
  match i with
  | 0 | 1 => simp [Ctrl.toWord, Ctrl.ofWord, -BitVec.getLsbD_eq_getElem]
  | i + 2 => simp [Ctrl.toWord, Ctrl.ofWord, -BitVec.getLsbD_eq_getElem]

/-- Settles O13: each write is that of its register, and a masked word is its low bits. -/
theorem writableRegistersKeepTheirDefinedBits : Obligations.WritableRegistersKeepTheirDefinedBits := by
  intro s v hidle
  refine ⟨⟨_, hostAccess_write_idle (r := .ctrl) v (by decide) rfl hidle, rfl, ctrl_ofWord_toWord v⟩,
    hostAccess_write_idle (r := .arg) v (by decide) rfl hidle,
    ⟨_, hostAccess_write_idle (r := .flvPrevValid) v (by decide) rfl hidle, rfl,
      BitVec.and_one_eq_setWidth_ofBool_getLsbD.symm⟩,
    ⟨_, hostAccess_write_idle (r := .flvPrevDs) v (by decide) rfl hidle, rfl,
      (and_low_bits v (k := 24) (by decide)).symm⟩⟩

/-! ## Which accesses are bus errors (20_memory R65) -/

theorem hostAccess_of_legal {a : BusAccess} {s : State} (h : AccessLegal s.cap.toNat a) :
    ∃ t, hostAccess a s = .next t := by
  obtain ⟨hword, halign, hmapped, hwrite⟩ := h
  cases a with
  | read w off =>
    obtain rfl : w = .word := hword
    simp only [BusAccess.offset] at halign hmapped
    rw [hostAccess_read_word s halign, hostRead]
    obtain ⟨r, hr⟩ | hwin := hmapped
    · rw [← hr, busTarget_offset]; exact ⟨_, rfl⟩
    · rw [busTarget_of_inWindow hwin]; exact ⟨_, rfl⟩
  | write w off v =>
    obtain rfl : w = .word := hword
    simp only [BusAccess.offset] at halign hmapped
    rw [hostAccess_write_word v s halign, hostWrite]
    obtain ⟨r, hr⟩ | hwin := hmapped
    · rw [← hr, busTarget_offset]; exact ⟨_, rfl⟩
    · exact absurd hwin (hwrite _ _ _ rfl)

theorem mapped_of_busTarget {cap off : Nat} {r : Reg} (h : busTarget cap off = .reg r) : Mapped cap off :=
  .inl ⟨r, offset_of_regAt (regAt_of_busTarget h)⟩

theorem accessLegal_of_next {a : BusAccess} {s t : State} (h : hostAccess a s = .next t) :
    AccessLegal s.cap.toNat a := by
  unfold hostAccess at h
  split at h
  · cases h
  next hform =>
    obtain ⟨hword, halign⟩ := (formError_eq_none_iff a).mp hform
    cases a with
    | read w off =>
      refine ⟨hword, halign, ?_, nofun⟩
      simp only [hostRead] at h
      split at h
      next r hr => exact mapped_of_busTarget hr
      next i hi => exact .inr (inWindow_of_busTarget hi)
      · cases h
    | write w off v =>
      simp only [hostWrite] at h
      split at h
      next r hr =>
        refine ⟨hword, halign, mapped_of_busTarget hr, fun _ _ _ _ => ?_⟩
        have hoff : r.offset = off.toNat := offset_of_regAt (regAt_of_busTarget hr)
        rw [BusAccess.offset, ← hoff]
        exact not_inWindow_offset _ r
      · cases h
      · cases h

/-- Settles O15: a legal access is answered, and an access that is answered is legal. -/
theorem busErrorsAreExactlyTheIllegalAccesses : Obligations.BusErrorsAreExactlyTheIllegalAccesses := by
  refine fun a s => ⟨hostAccess_of_legal, fun hillegal => ?_, fun r hr v => hostAccess_write_readOnly hr v s⟩
  obtain ⟨t, ht⟩ | hfault := hostAccess_cases a s
  · exact absurd (accessLegal_of_next ht) hillegal
  · exact hfault

/-! ## A CMD write and a host-program line (10_state R24, 30_encoding R99) -/

theorem running_of_accepted {s : State} {i : Instr} {w : Word} (h : i.opcode = w.setWidth 8) :
    Running (acceptCommand w s) i :=
  ⟨rfl, decode_eq_ok_iff.mpr (by simpa using h)⟩

/-- Settles O6: acceptance, after which LAST_OP decodes to the command; refusal; and the idle read. -/
theorem cmdWriteStartsTheCommand : Obligations.CmdWriteStartsTheCommand := by
  refine fun s v => ⟨fun hidle => ⟨_, hostAccess_write_cmd_idle v hidle, rfl, fun i hi => ?_⟩,
    hostAccess_write_busy (r := .cmd) v (by decide) rfl, hostAccess_read_idle .cmd⟩
  exact engineTurn_of_running (s := respond .writeOk (acceptCommand v s)) (running_of_accepted (s := s) hi)

theorem run_succ_of_step {s t : State} (k : Nat) (h : step s = .next t) :
    Sys2Proof.core.run (k + 1) s = Sys2Proof.core.run k t := by
  have hcore : Sys2Proof.core.step s = .next t := h
  simp only [Host.Core.run, hcore]

theorem run_one (s : State) : Sys2Proof.core.run 1 s = step s := by
  cases hcore : Sys2Proof.core.step s <;> simp only [Host.Core.run, hcore] <;> exact hcore.symm

theorem step_access (a : BusAccess) (rest : List Input) (s : State) :
    step { s with inputs := .access a :: rest } = hostAccess a { s with inputs := rest } := rfl

theorem step_wait_done {s : State} {rest : List Input} (hin : s.inputs = .wait :: rest)
    (hidle : s.status.busy = false) (hdone : s.status.done = true) :
    step s = .next { s with inputs := rest, response := .readData s.status.toWord } := by
  simp [step, hin, hidle, hostPoll, hostReadReg, respond, hdone, readReg]

/-- The CMD write of a line, and the engine's turn during the wait. -/
theorem run_cmd_wait {s : State} (i : Instr) (rest : List Input) (hidle : s.status.busy = false) :
    Sys2Proof.core.run 2 { s with inputs := wrLine .cmd (encode i) :: .wait :: rest } =
      exec i
        { s with status := s.status.accept i.opcode, inputs := .wait :: rest, response := .writeOk } := by
  have haccept : step { s with inputs := wrLine .cmd (encode i) :: .wait :: rest } =
      .next { s with status := s.status.accept i.opcode, inputs := .wait :: rest, response := .writeOk } := by
    rw [wrLine, step_access, ← setWidth_encode i]
    exact hostAccess_write_idle (r := .cmd) (encode i) (by decide) rfl hidle
  rw [run_succ_of_step 1 haccept, run_one, step_of_engineTurnNext (.inr (.inr ⟨rfl, rfl⟩))]
  exact engineTurn_of_running ⟨rfl, decode_opcode i⟩

/-! ## The interrupt output (60_exceptions R236, log 13) -/

/-- Settles O20: DONE is set by completion and cleared by the rest, and IE is bit 1 of CTRL. -/
theorem interruptFollowsDone : Obligations.InterruptFollowsDone := by
  refine fun s => ⟨rfl, fun c => Bool.and_true _, fun w => Bool.and_false _, fun v t hbit h => ?_,
    fun v t hidle hbit h => ?_, rfl⟩
  · rw [hostAccess_write_status] at h
    cases h
    simp [State.irq, Status.writeOneToClear, hbit]
  · obtain rfl : respond .writeOk (writeReg .ctrl v s) = t :=
      Host.Outcome.next.inj ((hostAccess_write_idle (r := .ctrl) v (by decide) rfl hidle).symm.trans h)
    simp [State.irq, writeReg, Ctrl.ofWord, hbit, -BitVec.getLsbD_eq_getElem]

/-! ## Reset (70_reset_and_hazards R250, 40_cursor R123) -/

theorem step_resetPin {s : State} {rest : List Input} (h : s.inputs = .resetPin :: rest) :
    step s = .next (resetBlock { s with inputs := rest }) := by
  simp only [step, h]

/-- Settles O22: the reset input and SOFT_RESET are `resetBlock`, and a CMD write while BUSY is refused. -/
theorem resetInputAbandonsTheCommand : Obligations.ResetInputAbandonsTheCommand :=
  fun _ _ h => ⟨⟨_, step_resetPin h, rfl, status_zero_toWord, rfl, rfl⟩, rfl,
    hostAccess_write_busy (r := .cmd) _ (by decide) rfl⟩

theorem status_softReset_toWord : Status.toWord ⟨false, true, false, false, .ok, 0x1F#8⟩ = 0x001F0002#32 := by
  decide

/-- Settles O26: `resetBlock`, then LAST_OP and completion. -/
theorem softResetReturnsTheResetValues : Obligations.SoftResetReturnsTheResetValues :=
  ⟨rfl, fun _ => ⟨_, rfl, rfl, status_softReset_toWord, rfl⟩⟩

end Sys2Proof.Machine
end

section
/-! Proofs about the AMF decoder's reads and stops (O37, O41, O59): each stage, equation by equation. -/

namespace Sys2Proof.Machine

/-! ## `need` and `stop` (43_flv R190, R192) -/

theorem amfStop_malformed (cur : AmfCur) : amfStop .malformedHeader cur = amfMalformed cur :=
  amfStop_of_ne_ok cur (by decide)

theorem amfUnsupported_eq (t : Byte) (cur : AmfCur) :
    amfUnsupported t cur =
      (.unsupportedCodec,
        { cur with
          amf := { cur.amf with stopType := t, partialDecode := true, stopOff := Word.ofN cur.k } }) :=
  amfStop_of_ne_ok _ (by decide)

theorem amfNeed_ok {n k : Nat} {cur : AmfCur} (h : cur.k + k ≤ n) : amfNeed n k cur = .ok cur :=
  if_neg h.not_gt

theorem amfNeed_short {n k : Nat} {cur : AmfCur} (h : n < cur.k + k) :
    amfNeed n k cur = .error (amfMalformed cur) :=
  (if_pos h).trans (congrArg _ (amfStop_malformed cur))

theorem amfNeed_bind_ok {n k : Nat} {cur : AmfCur} {f : AmfCur → AmfStep} (h : cur.k + k ≤ n) :
    amfNeed n k cur >>= f = f cur := by
  rw [amfNeed_ok h]; rfl

theorem amfNeed_bind_short {n k : Nat} {cur : AmfCur} {f : AmfCur → AmfStep} (h : n < cur.k + k) :
    amfNeed n k cur >>= f = .error (amfMalformed cur) := by
  rw [amfNeed_short h]; rfl

section Stages
variable {m : Memory} {p n : Nat} {row : Option (Fin 12)} {cur : AmfCur}

/-! ## The name -/

theorem amfName_empty (h : n < cur.k + 1) : amfName m p n cur = .error (amfMalformed cur) :=
  amfNeed_bind_short h

theorem amfName_undecoded (h : cur.k + 1 ≤ n) (ht : Memory.read m (p + cur.k) ≠ 0x02#8) :
    amfName m p n cur = .error (amfUnsupported (Memory.read m (p + cur.k)) cur) :=
  (amfNeed_bind_ok h).trans (if_pos ht)

theorem amfName_text (h : cur.k + 1 ≤ n) (ht : Memory.read m (p + cur.k) = 0x02#8) :
    amfName m p n cur =
      amfNeed n 2 (cur.skip 1) >>= fun c =>
        amfNeed n (memRead m (p + c.k) 2) (c.skip 2) >>= fun d =>
          .ok
            { d with
              k := d.k + memRead m (p + c.k) 2
              amf :=
                { d.amf with
                  nameOff := Word.ofN (p + d.k)
                  nameLen := Word.ofN (memRead m (p + c.k) 2)
                  nameIsOnMetaData :=
                    memRead m (p + c.k) 2 == 10 &&
                      bytesAt m (p + d.k) (memRead m (p + c.k) 2) == onMetaDataBytes } } :=
  (amfNeed_bind_ok h).trans (if_neg (not_not_intro ht))

theorem amfName_noLength (ht : Memory.read m (p + cur.k) = 0x02#8) (h1 : cur.k + 1 ≤ n) (h3 : n < cur.k + 3) :
    amfName m p n cur = .error (amfMalformed (cur.skip 1)) := by
  rw [amfName_text h1 ht, amfNeed_bind_short (cur := cur.skip 1) h3]

theorem amfName_noBytes (ht : Memory.read m (p + cur.k) = 0x02#8) (h3 : cur.k + 3 ≤ n)
    (hlen : n < cur.k + 3 + memRead m (p + cur.k + 1) 2) :
    amfName m p n cur = .error (amfMalformed (cur.skip 3)) := by
  rw [amfName_text (by omega) ht, amfNeed_bind_ok (cur := cur.skip 1) h3]
  exact amfNeed_bind_short (cur := cur.skip 3) hlen

/-! ## The array -/

theorem amfArray_of_head_error {e : ResultCode × AmfCur} (h : amfArrayHead m p n cur = .error e) :
    amfArray m p n cur = e := by
  unfold amfArray
  rw [h]
  rfl

theorem amfArrayHead_undecoded (ht : Memory.read m (p + cur.k) ≠ 0x08#8) :
    amfArrayHead m p n cur = .error (amfUnsupported (Memory.read m (p + cur.k)) cur) :=
  if_pos ht

theorem amfArrayHead_array (ht : Memory.read m (p + cur.k) = 0x08#8) :
    amfArrayHead m p n cur =
      amfNeed n 4 (cur.skip 1) >>= fun c =>
        .ok
          { c with
            k := c.k + 4
            amf := { c.amf with arrayPresent := true, count := Word.ofN (memRead m (p + c.k) 4) } } :=
  if_neg (not_not_intro ht)

theorem amfArrayHead_noCount (ht : Memory.read m (p + cur.k) = 0x08#8) (h : n < cur.k + 5) :
    amfArrayHead m p n cur = .error (amfMalformed (cur.skip 1)) := by
  rw [amfArrayHead_array ht, amfNeed_bind_short (cur := cur.skip 1) h]

/-! ## A value -/

theorem amfValue_empty (h : n < cur.k + 1) : amfValue m p n row cur = .error (amfMalformed cur) :=
  amfNeed_bind_short h

theorem amfValue_number (h : cur.k + 1 ≤ n) (ht : Memory.read m (p + cur.k) = 0x00#8) :
    amfValue m p n row cur =
      amfNeed n 8 (cur.skip 1) >>= fun c =>
        .ok ((amfStore row 0x00#8 (Word.ofN (memRead m (p + c.k) 4)) (Word.ofN (memRead m (p + c.k + 4) 4))
          c).skip 8) := by
  rw [amfValue, amfNeed_bind_ok h, ht]
  rfl

theorem amfValue_boolean (h : cur.k + 1 ≤ n) (ht : Memory.read m (p + cur.k) = 0x01#8) :
    amfValue m p n row cur =
      amfNeed n 1 (cur.skip 1) >>= fun c =>
        .ok ((amfStore row 0x01#8 0#32 ((Memory.read m (p + c.k)).setWidth 32) c).skip 1) := by
  rw [amfValue, amfNeed_bind_ok h, ht]
  rfl

theorem amfValue_text (h : cur.k + 1 ≤ n) (ht : Memory.read m (p + cur.k) = 0x02#8) :
    amfValue m p n row cur =
      amfNeed n 2 (cur.skip 1) >>= fun c =>
        amfNeed n (memRead m (p + c.k) 2) (c.skip 2) >>= fun d =>
          .ok ((amfStore row 0x02#8 (Word.ofN (memRead m (p + c.k) 2)) (Word.ofN (p + d.k)) d).skip
            (memRead m (p + c.k) 2)) := by
  rw [amfValue, amfNeed_bind_ok h, ht]
  rfl

theorem amfValue_undecoded (h : cur.k + 1 ≤ n) (h0 : Memory.read m (p + cur.k) ≠ 0x00#8)
    (h1 : Memory.read m (p + cur.k) ≠ 0x01#8) (h2 : Memory.read m (p + cur.k) ≠ 0x02#8) :
    amfValue m p n row cur = .error (amfUnsupported (Memory.read m (p + cur.k)) cur) :=
  (amfNeed_bind_ok h).trans ((if_neg h0).trans ((if_neg h1).trans (if_neg h2)))

theorem amfValue_noNumber (ht : Memory.read m (p + cur.k) = 0x00#8) (h1 : cur.k + 1 ≤ n) (h : n < cur.k + 9) :
    amfValue m p n row cur = .error (amfMalformed (cur.skip 1)) := by
  rw [amfValue_number h1 ht, amfNeed_bind_short (cur := cur.skip 1) h]

theorem amfValue_noBoolean (ht : Memory.read m (p + cur.k) = 0x01#8) (h1 : cur.k + 1 ≤ n) (h : n < cur.k + 2) :
    amfValue m p n row cur = .error (amfMalformed (cur.skip 1)) := by
  rw [amfValue_boolean h1 ht, amfNeed_bind_short (cur := cur.skip 1) h]

theorem amfValue_noLength (ht : Memory.read m (p + cur.k) = 0x02#8) (h1 : cur.k + 1 ≤ n) (h : n < cur.k + 3) :
    amfValue m p n row cur = .error (amfMalformed (cur.skip 1)) := by
  rw [amfValue_text h1 ht, amfNeed_bind_short (cur := cur.skip 1) h]

theorem amfValue_noBytes (ht : Memory.read m (p + cur.k) = 0x02#8) (h3 : cur.k + 3 ≤ n)
    (hlen : n < cur.k + 3 + memRead m (p + cur.k + 1) 2) :
    amfValue m p n row cur = .error (amfMalformed (cur.skip 3)) := by
  rw [amfValue_text (by omega) ht, amfNeed_bind_ok (cur := cur.skip 1) h3]
  exact amfNeed_bind_short (cur := cur.skip 3) hlen

/-! ## A pair, and the end marker -/

theorem amfPair_noLength (h : n < cur.k + 2) : amfPair m p n cur = .error (amfMalformed cur) :=
  amfNeed_bind_short h

theorem amfPair_noKey (h2 : cur.k + 2 ≤ n) (h : n < cur.k + 2 + memRead m (p + cur.k) 2) :
    amfPair m p n cur = .error (amfMalformed (cur.skip 2)) :=
  (amfNeed_bind_ok h2).trans (amfNeed_bind_short (cur := cur.skip 2) h)

/-- With its key there, a pair is its value, counted. -/
theorem amfPair_of_key {j : Nat} (hj : j = memRead m (p + cur.k) 2) (h : cur.k + 2 + j ≤ n) :
    amfPair m p n cur =
      amfValue m p n (metaKeyRow m (p + cur.k + 2) j) (cur.skip (2 + j)) >>= fun c =>
        .ok { c with amf := { c.amf with pairs := Word.ofN (c.amf.pairs.toNat + 1) } } := by
  subst hj
  have hskip : (cur.skip 2).skip (memRead m (p + cur.k) 2) = cur.skip (2 + memRead m (p + cur.k) 2) := by
    simp only [AmfCur.skip, Nat.add_assoc]
  rw [← hskip]
  exact (amfNeed_bind_ok (by omega)).trans (amfNeed_bind_ok (cur := cur.skip 2) h)

theorem amfPairs_of_pair_error {e : ResultCode × AmfCur} (h : amfPair m p n cur = .error e) (cnt : Nat) :
    amfPairs m p n (cnt + 1) cur = .error e := by
  rw [amfPairs, h]
  rfl

theorem amfEnd_noMarker (h : n < cur.k + 3) : amfEnd m p n cur = amfMalformed cur := by
  unfold amfEnd
  rw [amfNeed_short h]

theorem amfEnd_wrongMarker (h : cur.k + 3 ≤ n) (hmark : bytesAt m (p + cur.k) 3 ≠ [0x00#8, 0x00#8, 0x09#8]) :
    amfEnd m p n cur = amfMalformed cur := by
  unfold amfEnd
  rw [amfNeed_ok h, ← amfStop_malformed]
  exact if_pos (memRead_eq_amfEndMarker_iff.not.mpr hmark)

end Stages

/-- Settles O41: each stage's branch for a byte it does not decode. -/
theorem amfUndecodedTypesStopTheDecoder : Obligations.AmfUndecodedTypesStopTheDecoder := by
  rintro m p n row cur t stopped rfl hk rfl
  rw [← amfUnsupported_eq]
  exact ⟨amfName_undecoded hk, fun ht => amfArray_of_head_error (amfArrayHead_undecoded ht),
    amfValue_undecoded hk⟩

/-- Settles O59, in the order of the stages; in the last clause the pair's stop is its value's. -/
theorem amfShortPayloadStopsTheDecoder : Obligations.AmfShortPayloadStopsTheDecoder := by
  rintro m p n row cur t len rfl rfl
  refine ⟨amfName_empty, amfName_noLength, amfName_noBytes,
    fun ht h => amfArray_of_head_error (amfArrayHead_noCount ht h), amfPair_noLength, ?_, amfValue_empty,
    amfValue_noNumber, amfValue_noBoolean, amfValue_noLength, amfValue_noBytes, amfEnd_noMarker,
    amfEnd_wrongMarker, ?_⟩
  · rintro j rfl
    exact amfPair_noKey
  · rintro j c e hj hkey rfl hvalue cnt
    exact amfPairs_of_pair_error (by rw [amfPair_of_key hj hkey, hvalue]; rfl) cnt

/-! ## The decoder reads its payload alone (43_flv R190) -/

/-- What follows a `need` may rest on the bytes it has found to be there. -/
theorem amfNeed_bind_congr {n k : Nat} {cur : AmfCur} {f g : AmfCur → AmfStep}
    (h : cur.k + k ≤ n → f cur = g cur) : amfNeed n k cur >>= f = amfNeed n k cur >>= g := by
  by_cases hk : cur.k + k ≤ n
  · rw [amfNeed_bind_ok hk, amfNeed_bind_ok hk, h hk]
  · rw [amfNeed_bind_short (not_le.mp hk), amfNeed_bind_short (not_le.mp hk)]

/-- Two buffers with the same n bytes from p on. -/
def SamePayload (p n : Nat) (m m' : Memory) : Prop :=
  ∀ i, p ≤ i → i < p + n → Memory.read m i = Memory.read m' i

section Payload
variable {m m' : Memory} {p n : Nat} (hm : SamePayload p n m m')
include hm

theorem SamePayload.read {k : Nat} (h : k + 1 ≤ n) : Memory.read m (p + k) = Memory.read m' (p + k) :=
  hm _ (by omega) (by omega)

theorem SamePayload.memRead {k j : Nat} (h : k + j ≤ n) : memRead m (p + k) j = memRead m' (p + k) j :=
  memRead_congr fun i _ _ => hm i (by omega) (by omega)

theorem SamePayload.bytesAt {k j : Nat} (h : k + j ≤ n) : bytesAt m (p + k) j = bytesAt m' (p + k) j :=
  bytesAt_congr fun i _ _ => hm i (by omega) (by omega)

theorem SamePayload.metaKeyRow {k j : Nat} (h : k + j ≤ n) :
    metaKeyRow m (p + k) j = metaKeyRow m' (p + k) j := by
  simp only [Sys2Proof.Machine.metaKeyRow, hm.bytesAt h]

theorem SamePayload.amfName (cur : AmfCur) : amfName m p n cur = amfName m' p n cur := by
  refine amfNeed_bind_congr fun h1 => ?_
  simp only [hm.read h1]
  split
  · rfl
  refine amfNeed_bind_congr fun h2 => ?_
  simp only [hm.memRead h2]
  refine amfNeed_bind_congr fun hlen => ?_
  simp only [hm.bytesAt hlen]

theorem SamePayload.amfArrayHead {cur : AmfCur} (h : cur.k + 1 ≤ n) :
    amfArrayHead m p n cur = amfArrayHead m' p n cur := by
  simp only [Sys2Proof.Machine.amfArrayHead, hm.read h]
  split
  · rfl
  refine amfNeed_bind_congr fun h4 => ?_
  simp only [hm.memRead h4]

theorem SamePayload.amfValue (row : Option (Fin 12)) (cur : AmfCur) :
    amfValue m p n row cur = amfValue m' p n row cur := by
  refine amfNeed_bind_congr fun h1 => ?_
  simp only [hm.read h1]
  split
  · refine amfNeed_bind_congr fun h8 => ?_
    have hhi : (cur.skip 1).k + 4 ≤ n := by omega
    have hlo : (cur.skip 1).k + 4 + 4 ≤ n := by omega
    simp only [hm.memRead hhi, Nat.add_assoc p, hm.memRead hlo]
  split
  · exact amfNeed_bind_congr fun hbyte => by simp only [hm.read hbyte]
  split
  · refine amfNeed_bind_congr fun h2 => ?_
    simp only [hm.memRead h2]
  · rfl

theorem SamePayload.amfPair (cur : AmfCur) : amfPair m p n cur = amfPair m' p n cur := by
  refine amfNeed_bind_congr fun h2 => ?_
  simp only [hm.memRead h2]
  refine amfNeed_bind_congr fun hkey => ?_
  simp only [hm.metaKeyRow hkey, hm.amfValue]

theorem SamePayload.amfPairs (cnt : Nat) (cur : AmfCur) :
    amfPairs m p n cnt cur = amfPairs m' p n cnt cur := by
  induction cnt generalizing cur with
  | zero => rfl
  | succ cnt ih => simp only [Sys2Proof.Machine.amfPairs, hm.amfPair, funext ih]

theorem SamePayload.amfEnd (cur : AmfCur) : amfEnd m p n cur = amfEnd m' p n cur := by
  by_cases h3 : cur.k + 3 ≤ n
  · simp only [Sys2Proof.Machine.amfEnd, amfNeed_ok h3, hm.memRead h3]
  · rw [amfEnd_noMarker (not_le.mp h3), amfEnd_noMarker (not_le.mp h3)]

theorem SamePayload.amfArray {cur : AmfCur} (h : cur.k + 1 ≤ n) :
    amfArray m p n cur = amfArray m' p n cur := by
  simp only [Sys2Proof.Machine.amfArray, hm.amfArrayHead h, hm.amfPairs, hm.amfEnd]

end Payload

theorem amfNeed_bind_eq_ok {n k : Nat} {cur c : AmfCur} {f : AmfCur → AmfStep}
    (h : amfNeed n k cur >>= f = .ok c) : cur.k + k ≤ n ∧ f cur = .ok c := by
  by_cases hk : cur.k + k ≤ n
  · exact ⟨hk, (amfNeed_bind_ok hk).symm.trans h⟩
  · rw [amfNeed_bind_short (not_le.mp hk)] at h
    cases h

/-- The name ends within the payload. -/
theorem amfName_k_le {m : Memory} {p n : Nat} {cur c : AmfCur} (h : amfName m p n cur = .ok c) : c.k ≤ n := by
  obtain ⟨-, h⟩ := amfNeed_bind_eq_ok h
  dsimp only at h
  split at h
  · cases h
  obtain ⟨-, h⟩ := amfNeed_bind_eq_ok h
  obtain ⟨hlen, h⟩ := amfNeed_bind_eq_ok h
  cases h
  exact hlen

/-- Settles O37: stage by stage, each read stands behind the `need` that found its bytes; after the name the next
byte is there, since the name ends within the payload and not at its end. -/
theorem amfDecodeReadsOnlyItsPayload : Obligations.AmfDecodeReadsOnlyItsPayload := by
  intro m m' p n amf rows hm
  have hpayload : SamePayload p n m m' := hm
  unfold amfDecode
  rw [hpayload.amfName]
  split
  · rfl
  next c hname =>
    split
    · rfl
    next hne =>
      have hle : c.k ≤ n := amfName_k_le hname
      exact hpayload.amfArray (by omega)

end Sys2Proof.Machine
end

section
/-! Proofs about the AMF decoder's results (O38, O40, O60): the key table, and decoding what was encoded. -/

namespace Sys2Proof.Machine

/-! ## The key table (43_flv R191, 10_state R36) -/

/-- The row of a key given as bytes. -/
def keyRow (key : List Byte) : Option (Fin 12) := (metaKeys.find? fun e => key == e.2).map Prod.fst

/-- The length test of R191 is part of the comparison of the bytes. -/
theorem metaKeyRow_eq (m : Memory) (i j : Nat) : metaKeyRow m i j = keyRow (bytesAt m i j) := by
  have hsame : (fun e : Fin 12 × List Byte => j == e.2.length && bytesAt m i j == e.2) =
      fun e => bytesAt m i j == e.2 := by
    funext e
    by_cases he : bytesAt m i j = e.2
    · simp [← he]
    · simp [he]
  rw [metaKeyRow, hsame, keyRow]

theorem metaKeys_distinct : ∀ e ∈ metaKeys, ∀ e' ∈ metaKeys, e.2 = e'.2 → e = e' := by decide

theorem keyRow_eq_some_iff {key : List Byte} {r : Fin 12} : keyRow key = some r ↔ (r, key) ∈ metaKeys := by
  constructor
  · intro h
    obtain ⟨e, hfind, rfl⟩ := Option.map_eq_some_iff.mp h
    obtain rfl : key = e.2 := by simpa using List.find?_some hfind
    exact List.mem_of_find?_eq_some hfind
  · intro h
    have hsome : (metaKeys.find? fun e => key == e.2).isSome := List.find?_isSome.mpr ⟨_, h, by simp⟩
    obtain ⟨e, hfind⟩ := Option.isSome_iff_exists.mp hsome
    have hkey : key = e.2 := by simpa using List.find?_some hfind
    obtain rfl : e = (r, key) := metaKeys_distinct _ (List.mem_of_find?_eq_some hfind) _ h hkey.symm
    rw [keyRow, hfind]
    rfl

theorem amfStore_some_rows_get (type : Byte) (hi lo : Word) (cur : AmfCur) (r k : Fin 12) :
    (amfStore (some r) type hi lo cur).rows.get k =
      if k = r then ⟨true, type, hi, lo⟩ else cur.rows.get k := by
  simp only [amfStore, Vector.get_eq_getElem, Vector.getElem_set, Fin.ext_iff, eq_comm]

theorem onMetaDataBytes_eq : onMetaDataBytes = ascii "onMetaData" := by decide

/-- Settles O40: the literals are the texts, recognition is membership in the table, and `store` is one `set`. -/
theorem amfStoreWritesOnlyTheRowOfTheKey : Obligations.AmfStoreWritesOnlyTheRowOfTheKey := by
  refine ⟨by decide, onMetaDataBytes_eq, fun m i j r => ?_, fun m i j => ?_, fun type hi lo cur r k =>
    ⟨rfl, amfStore_some_rows_get type hi lo cur r k, rfl⟩⟩
  · rw [metaKeyRow_eq, keyRow_eq_some_iff]
  · rw [metaKeyRow_eq, Option.eq_none_iff_forall_ne_some]
    exact forall_congr' fun r => keyRow_eq_some_iff.not

/-! ## A buffer that holds given bytes (00_scope R10, R11) -/

/-- The bytes `l` stand in the buffer from index `i` on. -/
def Holds (m : Memory) (i : Nat) (l : List Byte) : Prop := bytesAt m i l.length = l

theorem bytesAt_add (m : Memory) (i a b : Nat) :
    bytesAt m i (a + b) = bytesAt m i a ++ bytesAt m (i + a) b := by
  induction a generalizing i with
  | zero => simp [bytesAt]
  | succ a ih =>
    have hidx : i + 1 + a = i + (a + 1) := by omega
    rw [Nat.succ_add, bytesAt, ih, hidx, bytesAt, List.cons_append]

theorem holds_append {m : Memory} {i : Nat} {l l' : List Byte} :
    Holds m i (l ++ l') ↔ Holds m i l ∧ Holds m (i + l.length) l' := by
  rw [Holds, List.length_append, bytesAt_add]
  exact ⟨fun h => List.append_inj h (bytesAt_length ..), fun ⟨h, h'⟩ => by rw [h, h']⟩

theorem holds_cons {m : Memory} {i : Nat} {b : Byte} {l : List Byte} :
    Holds m i (b :: l) ↔ Memory.read m i = b ∧ Holds m (i + 1) l := by
  simp only [Holds, List.length_cons, bytesAt, List.cons.injEq]

theorem bytes16_length (n : Nat) : (bytes16 n).length = 2 := rfl

theorem bytes32_length (n : Nat) : (bytes32 n).length = 4 := rfl

theorem memRead_of_holds_bytes16 {m : Memory} {i n : Nat} (h : Holds m i (bytes16 n)) :
    memRead m i 2 = n % 65536 := by
  obtain ⟨hhigh, h⟩ := holds_cons.mp h
  obtain ⟨hlow, -⟩ := holds_cons.mp h
  simp only [memRead, hhigh, hlow, BitVec.toNat_ofNat]
  omega

theorem memRead_add (m : Memory) (i a b : Nat) :
    memRead m i (a + b) = memRead m i a * 256 ^ b + memRead m (i + a) b := by
  induction b with
  | zero => simp [memRead]
  | succ b ih =>
    rw [← Nat.add_assoc, memRead_snoc, ih, memRead_snoc, Nat.add_assoc]
    ring

theorem memRead_of_holds_bytes32 {m : Memory} {i n : Nat} (h : Holds m i (bytes32 n)) (hn : n < 4294967296) :
    memRead m i 4 = n := by
  obtain ⟨hhigh, hlow⟩ := holds_append.mp h
  rw [bytes16_length] at hlow
  rw [memRead_add m i 2 2, memRead_of_holds_bytes16 hhigh, memRead_of_holds_bytes16 hlow]
  omega

/-! ## Decoding what was encoded (30_encoding R94) -/

theorem text_encode_length (bs : List Byte) : (AmfScalar.text bs).encode.length = 3 + bs.length := by
  simp [AmfScalar.encode, bytes16_length]
  omega

/-- A text stands as its type byte, its length and its bytes. -/
theorem holds_text {m : Memory} {i : Nat} {bs : List Byte} (h : Holds m i (AmfScalar.text bs).encode)
    (hfits : bs.length < 65536) :
    Memory.read m i = 0x02#8 ∧ memRead m (i + 1) 2 = bs.length ∧ bytesAt m (i + 3) bs.length = bs := by
  obtain ⟨htype, h⟩ := holds_cons.mp h
  obtain ⟨hlen, hbytes⟩ := holds_append.mp h
  exact ⟨htype, (memRead_of_holds_bytes16 hlen).trans (Nat.mod_eq_of_lt hfits), hbytes⟩

/-- The decoder's state with a whole name behind it. -/
def withName (p : Nat) (name : List Byte) (cur : AmfCur) : AmfCur :=
  { cur with
    k := cur.k + 3 + name.length
    amf :=
      { cur.amf with
        nameOff := Word.ofN (p + cur.k + 3)
        nameLen := Word.ofN name.length
        nameIsOnMetaData := name == onMetaDataBytes } }

/-- The length test of R190 is part of the comparison of the bytes. -/
theorem length_beq_and_beq_onMetaData (name : List Byte) :
    (name.length == 10 && name == onMetaDataBytes) = (name == onMetaDataBytes) := by
  by_cases h : name = onMetaDataBytes
  · rw [h]; rfl
  · simp [h]

theorem amfName_of_holds {m : Memory} {p n : Nat} {cur : AmfCur} {name : List Byte}
    (h : Holds m (p + cur.k) (AmfScalar.text name).encode) (hfits : name.length < 65536)
    (hend : cur.k + 3 + name.length ≤ n) : amfName m p n cur = .ok (withName p name cur) := by
  obtain ⟨htype, hlen, hbytes⟩ := holds_text h hfits
  have h1 : cur.k + 1 ≤ n := by omega
  have h3 : (cur.skip 1).k + 2 ≤ n := by simp only [amfSkip_k]; omega
  have hlen' : memRead m (p + (cur.skip 1).k) 2 = name.length := hlen
  have hbytes' : bytesAt m (p + ((cur.skip 1).skip 2).k) name.length = name := hbytes
  rw [amfName_text h1 htype, amfNeed_bind_ok h3, hlen', amfNeed_bind_ok (cur := (cur.skip 1).skip 2) hend,
    hbytes', length_beq_and_beq_onMetaData]
  rfl

theorem amfSkip_skip (cur : AmfCur) (a b : Nat) : (cur.skip a).skip b = cur.skip (a + b) := by
  simp only [AmfCur.skip, Nat.add_assoc]

theorem amfStore_skip (row : Option (Fin 12)) (t : Byte) (hi lo : Word) (cur : AmfCur) (a : Nat) :
    amfStore row t hi lo (cur.skip a) = (amfStore row t hi lo cur).skip a := by
  cases row <;> rfl

/-- A value's row stored under a key's row, or nowhere. -/
def storeScalar (row : Option (Fin 12)) (e : MetaRow) (cur : AmfCur) : AmfCur :=
  amfStore row e.amfType e.hi e.lo cur

theorem amfValue_of_holds {m : Memory} {p n : Nat} (row : Option (Fin 12)) {cur : AmfCur} {v : AmfScalar}
    (h : Holds m (p + cur.k) v.encode) (hfits : ∀ bs, v = .text bs → bs.length < 65536)
    (hend : cur.k + v.encode.length ≤ n) :
    amfValue m p n row cur = .ok ((storeScalar row (v.row (p + cur.k)) cur).skip v.encode.length) := by
  cases v with
  | number hi lo =>
    obtain ⟨htype, h⟩ := holds_cons.mp h
    obtain ⟨hhi, hlo⟩ := holds_append.mp h
    have h9 : cur.k + 9 ≤ n := hend
    have hhi' : memRead m (p + (cur.skip 1).k) 4 = hi.toNat := memRead_of_holds_bytes32 hhi hi.isLt
    have hlo' : memRead m (p + (cur.skip 1).k + 4) 4 = lo.toNat := memRead_of_holds_bytes32 hlo lo.isLt
    rw [amfValue_number (by omega) htype, amfNeed_bind_ok (cur := cur.skip 1) h9, hhi', hlo',
      word_ofN_toNat, word_ofN_toNat]
    cases row <;> rfl
  | boolean b =>
    obtain ⟨htype, h⟩ := holds_cons.mp h
    obtain ⟨hbyte, -⟩ := holds_cons.mp h
    have h2 : cur.k + 2 ≤ n := hend
    have hbyte' : Memory.read m (p + (cur.skip 1).k) = b := hbyte
    rw [amfValue_boolean (by omega) htype, amfNeed_bind_ok (cur := cur.skip 1) h2, hbyte']
    cases row <;> rfl
  | text bs =>
    obtain ⟨htype, hlen, -⟩ := holds_text h (hfits bs rfl)
    rw [text_encode_length, ← Nat.add_assoc] at hend
    have h3 : cur.k + 3 ≤ n := by omega
    have hlen' : memRead m (p + (cur.skip 1).k) 2 = bs.length := hlen
    rw [amfValue_text (by omega) htype, amfNeed_bind_ok (cur := cur.skip 1) h3, hlen',
      amfNeed_bind_ok (cur := (cur.skip 1).skip 2) hend, text_encode_length]
    simp only [amfStore_skip, amfSkip_skip]
    rfl

theorem encodePair_length (q : List Byte × AmfScalar) :
    (encodePair q).length = 2 + q.1.length + q.2.encode.length := by
  simp only [encodePair, List.length_append, bytes16_length]

/-- Every length of the pair fits its field. -/
def PairFits (q : List Byte × AmfScalar) : Prop :=
  q.1.length < 65536 ∧ ∀ bs, q.2 = .text bs → bs.length < 65536

/-- The decoder's state with the pair `q` behind it. -/
def afterPair (p : Nat) (cur : AmfCur) (q : List Byte × AmfScalar) : AmfCur :=
  { k := cur.k + (encodePair q).length
    amf := { cur.amf with pairs := Word.ofN (cur.amf.pairs.toNat + 1) }
    rows := (storeScalar (keyRow q.1) (q.2.row (p + cur.k + 2 + q.1.length)) cur).rows }

theorem storeScalar_skip (row : Option (Fin 12)) (e : MetaRow) (cur : AmfCur) (a : Nat) :
    storeScalar row e (cur.skip a) = (storeScalar row e cur).skip a := amfStore_skip ..

@[simp] theorem storeScalar_k (row : Option (Fin 12)) (e : MetaRow) (cur : AmfCur) :
    (storeScalar row e cur).k = cur.k := amfStore_k ..

@[simp] theorem storeScalar_amf (row : Option (Fin 12)) (e : MetaRow) (cur : AmfCur) :
    (storeScalar row e cur).amf = cur.amf := amfStore_amf ..

theorem amfPair_of_holds {m : Memory} {p n : Nat} {cur : AmfCur} {q : List Byte × AmfScalar}
    (h : Holds m (p + cur.k) (encodePair q)) (hfits : PairFits q)
    (hend : cur.k + (encodePair q).length ≤ n) : amfPair m p n cur = .ok (afterPair p cur q) := by
  obtain ⟨hkeyFits, htextFits⟩ := hfits
  obtain ⟨hhead, hvalue⟩ := holds_append.mp h
  obtain ⟨hlen, hkey⟩ := holds_append.mp hhead
  rw [List.length_append, bytes16_length] at hvalue
  rw [encodePair_length] at hend
  have hj : q.1.length = memRead m (p + cur.k) 2 :=
    ((memRead_of_holds_bytes16 hlen).trans (Nat.mod_eq_of_lt hkeyFits)).symm
  have hrow : metaKeyRow m (p + cur.k + 2) q.1.length = keyRow q.1 := by
    rw [metaKeyRow_eq]
    exact congrArg keyRow hkey
  have hidx : p + (cur.skip (2 + q.1.length)).k = p + cur.k + 2 + q.1.length := by
    simp only [amfSkip_k]; omega
  rw [amfPair_of_key hj (by omega), hrow,
    amfValue_of_holds (cur := cur.skip (2 + q.1.length)) (v := q.2) (keyRow q.1)
      (by simpa only [amfSkip_k, Nat.add_assoc] using hvalue) htextFits
      (by simp only [amfSkip_k]; omega),
    hidx, storeScalar_skip, amfSkip_skip, ← encodePair_length]
  simp only [afterPair, bind, Except.bind, amfSkip_k, amfSkip_amf, amfSkip_rows, storeScalar_k, storeScalar_amf]

theorem amfPairs_of_holds {m : Memory} {p n : Nat} {cur : AmfCur} {qs : List (List Byte × AmfScalar)}
    (h : Holds m (p + cur.k) (qs.flatMap encodePair)) (hfits : ∀ q ∈ qs, PairFits q)
    (hend : cur.k + (qs.flatMap encodePair).length ≤ n) :
    amfPairs m p n qs.length cur = .ok (qs.foldl (afterPair p) cur) := by
  induction qs generalizing cur with
  | nil => rfl
  | cons q qs ih =>
    rw [List.flatMap_cons] at h hend
    obtain ⟨hq, hqs⟩ := holds_append.mp h
    rw [List.length_append] at hend
    rw [List.length_cons, amfPairs, amfPair_of_holds hq (hfits q (by simp)) (by omega), List.foldl_cons]
    refine ih (cur := afterPair p cur q) ?_ (fun q' hq' => hfits q' (by simp [hq'])) ?_
    · simpa only [afterPair, Nat.add_assoc] using hqs
    · simp only [afterPair]; omega

theorem word_ofN_toNat_ofN_add (a b : Nat) : Word.ofN ((Word.ofN a).toNat + b) = Word.ofN (a + b) := by
  apply BitVec.eq_of_toNat_eq
  simp [BitVec.toNat_ofNat]

/-- What the decoder holds after all pairs: the offset and the count moved on, and the table of the pairs. -/
theorem foldl_afterPair (p : Nat) (cur : AmfCur) (qs : List (List Byte × AmfScalar)) :
    qs.foldl (afterPair p) cur =
      { k := cur.k + (qs.flatMap encodePair).length
        amf := { cur.amf with pairs := Word.ofN (cur.amf.pairs.toNat + qs.length) }
        rows := storedRows (p + cur.k) cur.rows qs } := by
  induction qs generalizing cur with
  | nil => simp [storedRows]
  | cons q qs ih =>
    have hrows : storedRows (p + cur.k) cur.rows (q :: qs) =
        storedRows (p + cur.k + (encodePair q).length) (afterPair p cur q).rows qs := by
      rw [storedRows]
      congr 1
      simp only [afterPair, storeScalar, keyRow]
      cases (metaKeys.find? fun e => q.1 == e.2).map Prod.fst with
      | none => rfl
      | some r => cases q.2 <;> rfl
    rw [List.foldl_cons, ih, hrows]
    simp only [afterPair, word_ofN_toNat_ofN_add, List.flatMap_cons, List.length_append, List.length_cons,
      Nat.add_assoc, Nat.add_comm 1]

/-- The decoder's state with an array's head behind it. -/
def withCount (cnt : Nat) (cur : AmfCur) : AmfCur :=
  { cur with k := cur.k + 5, amf := { cur.amf with arrayPresent := true, count := Word.ofN cnt } }

theorem amfArrayHead_of_holds {m : Memory} {p n cnt : Nat} {cur : AmfCur}
    (h : Holds m (p + cur.k) (0x08#8 :: bytes32 cnt)) (hcnt : cnt < 4294967296) (hend : cur.k + 5 ≤ n) :
    amfArrayHead m p n cur = .ok (withCount cnt cur) := by
  obtain ⟨htype, hcount⟩ := holds_cons.mp h
  have hcount' : memRead m (p + (cur.skip 1).k) 4 = cnt := memRead_of_holds_bytes32 hcount hcnt
  rw [amfArrayHead_array htype, amfNeed_bind_ok (cur := cur.skip 1) hend, hcount']
  rfl

theorem amfArray_of_ok {m : Memory} {p n : Nat} {cur c d : AmfCur} (hhead : amfArrayHead m p n cur = .ok c)
    (hpairs : amfPairs m p n c.amf.count.toNat c = .ok d) : amfArray m p n cur = amfEnd m p n d := by
  unfold amfArray
  rw [hhead]
  simp only [bind, Except.bind, hpairs]

/-- An ECMA array of the pairs with its end marker (43_flv R190). -/
def encodeArray (pairs : List (List Byte × AmfScalar)) : List Byte :=
  (0x08#8 :: bytes32 pairs.length) ++ pairs.flatMap encodePair ++ [0x00#8, 0x00#8, 0x09#8]

theorem encodeScript_eq (name : List Byte) (pairs : List (List Byte × AmfScalar)) :
    encodeScript name pairs = (AmfScalar.text name).encode ++ encodeArray pairs := by
  simp only [encodeScript, encodeArray, List.cons_append]

theorem encodeArray_length (pairs : List (List Byte × AmfScalar)) :
    (encodeArray pairs).length = 5 + (pairs.flatMap encodePair).length + 3 := by
  simp only [encodeArray, List.length_append, List.length_cons, bytes32_length, List.length_nil]

/-- The array decoded to its last byte, where the payload ends. -/
theorem amfArray_of_holds {m : Memory} {p n : Nat} {cur : AmfCur} {pairs : List (List Byte × AmfScalar)}
    (h : Holds m (p + cur.k) (encodeArray pairs)) (hcnt : pairs.length < 4294967296)
    (hfits : ∀ q ∈ pairs, PairFits q) (hn : n = cur.k + (encodeArray pairs).length) :
    amfArray m p n cur =
      (.ok,
        { k := n
          amf :=
            { cur.amf with
              arrayPresent := true
              endSeen := true
              count := Word.ofN pairs.length
              pairs := Word.ofN (cur.amf.pairs.toNat + pairs.length)
              stopOff := Word.ofN n }
          rows := storedRows (p + cur.k + 5) cur.rows pairs }) := by
  rw [encodeArray_length] at hn
  obtain ⟨hbody, hmark⟩ := holds_append.mp h
  obtain ⟨hhead, hpairs⟩ := holds_append.mp hbody
  have hcount : (withCount pairs.length cur).amf.count.toNat = pairs.length := Nat.mod_eq_of_lt hcnt
  have hpairs' : amfPairs m p n (withCount pairs.length cur).amf.count.toNat (withCount pairs.length cur) =
      .ok (pairs.foldl (afterPair p) (withCount pairs.length cur)) := by
    rw [hcount]
    exact amfPairs_of_holds hpairs hfits (by simp only [withCount]; omega)
  have hk : (withCount pairs.length cur).k + (pairs.flatMap encodePair).length + 3 = n := by
    simp only [withCount]; omega
  have hidx : p + cur.k + (0x08#8 :: bytes32 pairs.length ++ pairs.flatMap encodePair).length =
      p + ((withCount pairs.length cur).k + (pairs.flatMap encodePair).length) := by
    simp only [withCount, List.length_append, List.length_cons, bytes32_length]
    omega
  rw [amfArray_of_ok (amfArrayHead_of_holds hhead hcnt (by omega)) hpairs', foldl_afterPair,
    amfEnd_of_marker hk.le, if_neg (not_not_intro hk), amfStop_ok]
  · simp only [hk]
    rfl
  · exact hidx ▸ hmark

/-- Where the decoder starts (43_flv R190). -/
def decoderStart (rows : Vector MetaRow 12) : AmfCur := ⟨0, { GAmf.zero with decoded := true }, rows⟩

theorem amfDecode_of_name {m : Memory} {p n : Nat} {rows : Vector MetaRow 12} {c : AmfCur}
    (h : amfName m p n (decoderStart rows) = .ok c) :
    amfDecode m p n GAmf.zero rows = if c.k = n then amfStop .ok c else amfArray m p n c := by
  unfold amfDecode
  rw [show amfName m p n ⟨0, { GAmf.zero with decoded := true }, rows⟩ = .ok c from h]

/-- Settles O38: the name, then `amfArray_of_holds` on the rest of the payload. -/
theorem amfDecodeRecoversAnEncodedScript : Obligations.AmfDecodeRecoversAnEncodedScript := by
  intro m p n name pairs rows hfits hn hbytes
  obtain ⟨hnameFits, hcnt, hpairsFit⟩ := hfits
  have hholds : Holds m p (encodeScript name pairs) := by rw [Holds, ← hn, hbytes]
  rw [encodeScript_eq] at hn hholds
  rw [List.length_append, text_encode_length] at hn
  obtain ⟨hname, harray⟩ := holds_append.mp hholds
  rw [text_encode_length] at harray
  have hk : (withName p name (decoderStart rows)).k = 3 + name.length := by
    simp only [withName, decoderStart, Nat.zero_add]
  have hpos := encodeArray_length pairs
  have hdec := amfName_of_holds (cur := decoderStart rows) hname hnameFits
    (by simp only [decoderStart]; omega : (decoderStart rows).k + 3 + name.length ≤ n)
  rw [amfDecode_of_name hdec, if_neg (by omega),
    amfArray_of_holds (by rwa [hk]) hcnt hpairsFit (by rw [hk, hn]), hk]
  simp only [withName, decoderStart, GAmf.zero, BitVec.toNat_ofNat, Nat.zero_mod, Nat.zero_add, Nat.add_zero]

theorem amfDecode_empty (m : Memory) (p : Nat) (rows : Vector MetaRow 12) :
    amfDecode m p 0 GAmf.zero rows = amfMalformed (decoderStart rows) := by
  unfold amfDecode
  rw [amfName_empty (by decide : 0 < 0 + 1)]
  rfl

/-- Settles O60: the name ends the payload; and at offset 0 of an empty one the first `need` fails. -/
theorem amfNameAloneIsAWholePayload : Obligations.AmfNameAloneIsAWholePayload := by
  refine ⟨fun m p n name rows hfits hn hbytes => ?_, amfDecode_empty⟩
  have hholds : Holds m p (AmfScalar.text name).encode := by rw [Holds, ← hn, hbytes]
  rw [text_encode_length] at hn
  have hk : (withName p name (decoderStart rows)).k = n := by
    simp only [withName, decoderStart, Nat.zero_add, hn]
  have hdec := amfName_of_holds (cur := decoderStart rows) hholds hfits
    (by simp only [decoderStart]; omega : (decoderStart rows).k + 3 + name.length ≤ n)
  rw [amfDecode_of_name hdec, if_pos hk, amfStop_ok, hk, ← onMetaDataBytes_eq, ← hk]
  rfl

end Sys2Proof.Machine
end

section
/-! Proofs of the NAL family (O28, O29, O30): the search finds the first start code, NAL_NEXT branch by branch, and its
sessions. -/

namespace Sys2Proof.Machine

/-! ## The start-code search (41_nal R131) -/

theorem startCode_eq_none_iff {m : Memory} {len i : Nat} :
    startCode m len i = none ↔ ∀ c, ¬ StartCodeAt m len i c := by
  rw [Option.eq_none_iff_forall_ne_some]
  exact forall_congr' fun c => startCode_eq_some_iff.not

theorem StartCodeAt.lt_len {m : Memory} {len i c : Nat} (h : StartCodeAt m len i c) : i + c ≤ len := by
  rcases h with ⟨rfl, hlen, -⟩ | ⟨rfl, hlen, -⟩ <;> omega

theorem firstStartCode_eq_some_iff {m : Memory} {len lo i c : Nat} :
    firstStartCode m len lo = some (i, c) ↔ FirstStartCodeAt m len lo i c := by
  rw [firstStartCode, leastSome_eq_some, startCode_eq_some_iff]
  constructor
  · rintro ⟨hlo, -, hat, hleast⟩
    exact ⟨hlo, hat, fun j d hj hji => startCode_eq_none_iff.mp (hleast j hj hji) d⟩
  · rintro ⟨hlo, hat, hleast⟩
    have hend := hat.lt_len
    have hlength := hat.length_cases
    exact ⟨hlo, by omega, hat, fun j hj hji => startCode_eq_none_iff.mpr fun d => hleast j d hj hji⟩

theorem firstStartCode_eq_none_iff {m : Memory} {len lo : Nat} :
    firstStartCode m len lo = none ↔ NoStartCodeFrom m len lo := by
  rw [firstStartCode, leastSome_eq_none]
  constructor
  · intro hnone j c hj hat
    have hend := hat.lt_len
    have hlength := hat.length_cases
    exact startCode_eq_none_iff.mp (hnone j hj (by omega)) c hat
  · exact fun hnone j hj _ => startCode_eq_none_iff.mpr fun c => hnone j c hj

/-- There is a first start code from `lo` on, or none at all. -/
theorem first_or_no_startCode (m : Memory) (len lo : Nat) :
    (∃ i c, FirstStartCodeAt m len lo i c) ∨ NoStartCodeFrom m len lo := by
  cases h : firstStartCode m len lo with
  | none => exact .inr (firstStartCode_eq_none_iff.mp h)
  | some ic => exact .inl ⟨ic.1, ic.2, firstStartCode_eq_some_iff.mp h⟩

/-! ## NAL_NEXT (41_nal R130) -/

/-- The unit with start code of `c` bytes at `i` ends at `e`: at the next start code, or at LEN at end of stream. -/
def UnitEndsAt (m : Memory) (len i c : Nat) (eos : Bool) (e : Nat) : Prop :=
  (∃ d, FirstStartCodeAt m len (i + c) e d) ∨ (NoStartCodeFrom m len (i + c) ∧ eos = true ∧ e = len)

section Body
variable {l : Latch} {s : State}

theorem nalNextBody_unit {i c e : Nat} (hfirst : FirstStartCodeAt s.ibuf l.len l.p0 i c)
    (hend : UnitEndsAt s.ibuf l.len i c l.eos e) : nalNextBody l s = nalReport l i c e s := by
  rw [nalNextBody, firstStartCode_eq_some_iff.mpr hfirst]
  obtain ⟨d, hnext⟩ | ⟨hnone, heos, rfl⟩ := hend
  · simp only [firstStartCode_eq_some_iff.mpr hnext]
  · simp only [firstStartCode_eq_none_iff.mpr hnone, if_pos heos]

theorem nalNextBody_noEnd {i c : Nat} (hfirst : FirstStartCodeAt s.ibuf l.len l.p0 i c)
    (hnone : NoStartCodeFrom s.ibuf l.len (i + c)) (heos : l.eos = false) :
    nalNextBody l s = shortfall l (l.avail + 1) s := by
  rw [nalNextBody, firstStartCode_eq_some_iff.mpr hfirst]
  simp only [firstStartCode_eq_none_iff.mpr hnone, heos]
  rfl

theorem nalNextBody_none (hnone : NoStartCodeFrom s.ibuf l.len l.p0) :
    nalNextBody l s =
      complete
        (if l.eos then (if l.avail = 0 then .endOfStream else .noStartCode)
         else if l.cap < l.avail + 1 then .capacityExceeded else .needMoreData) s := by
  rw [nalNextBody, firstStartCode_eq_none_iff.mpr hnone]
  cases heos : l.eos with
  | true => exact (apply_ite (complete · s) ..).symm
  | false => simp only [shortfall, shortfallCode, heos]; rfl

end Body

theorem UnitEndsAt.bounds {m : Memory} {len lo i c e : Nat} {eos : Bool}
    (h : UnitEndsAt m len i c eos e) (hfirst : FirstStartCodeAt m len lo i c) : i + c ≤ e ∧ e ≤ len := by
  obtain ⟨d, hle, hat, -⟩ | ⟨-, -, rfl⟩ := h
  · exact ⟨hle, (Nat.le_add_right e d).trans hat.lt_len⟩
  · exact ⟨hfirst.2.1.lt_len, le_rfl⟩

/-- G_NAL of a unit (41_nal R134); without a header byte its fields are 0. -/
theorem nalReport_eq (l : Latch) (i c e : Nat) (s : State) :
    nalReport l i c e s =
      complete .ok
        { s with
          pos := Word.ofN e
          consumed := Word.ofN (e - l.p0)
          skipped := Word.ofN (i - l.p0)
          nal :=
            { scLen := BitVec.ofNat 3 c
              hdrValid := decide (i + c < e)
              forbidden := decide (i + c < e) && (Memory.read s.ibuf (i + c)).getLsbD 7
              refIdc := if i + c < e then (Memory.read s.ibuf (i + c)).extractLsb 6 5 else 0#2
              unitType := if i + c < e then (Memory.read s.ibuf (i + c)).extractLsb 4 0 else 0#5
              scOff := Word.ofN i
              payOff := Word.ofN (i + c)
              payLen := Word.ofN (e - (i + c)) } } := by
  by_cases hlt : i + c < e
  · simp only [nalReport, if_pos hlt, decide_eq_true hlt, Bool.true_and]
    rfl
  · simp only [nalReport, if_neg hlt, decide_eq_false hlt, Bool.false_and]
    rfl

theorem latch_avail_eq_zero_iff {s : State} (h : s.pos.toNat ≤ s.len.toNat) :
    s.latch.avail = 0 ↔ s.pos = s.len := by
  rw [← BitVec.toNat_inj]
  simp only [Latch.avail, State.latch]
  omega

theorem exec_nalNext_unit {s : State} {i c e : Nat} (hfirst : FirstStartCodeAt s.ibuf s.len.toNat s.pos.toNat i c)
    (hend : UnitEndsAt s.ibuf s.len.toNat i c s.ctrl.eos e) :
    exec .nalNext s = .next (nalReport s.latch i c e (startCommand .nalNext s)) :=
  congrArg _ (nalNextBody_unit (l := s.latch) (s := startCommand .nalNext s) hfirst hend)

theorem exec_nalNext_noEnd {s : State} {i c : Nat} (hfirst : FirstStartCodeAt s.ibuf s.len.toNat s.pos.toNat i c)
    (hnone : NoStartCodeFrom s.ibuf s.len.toNat (i + c)) (heos : s.ctrl.eos = false) :
    exec .nalNext s = .next (shortfall s.latch (s.latch.avail + 1) (startCommand .nalNext s)) :=
  congrArg _ (nalNextBody_noEnd (l := s.latch) (s := startCommand .nalNext s) hfirst hnone heos)

theorem exec_nalNext_none {s : State} (hnone : NoStartCodeFrom s.ibuf s.len.toNat s.pos.toNat) :
    exec .nalNext s =
      .next
        (complete
          (if s.ctrl.eos then (if s.latch.avail = 0 then .endOfStream else .noStartCode)
           else if s.cap.toNat < s.latch.avail + 1 then .capacityExceeded else .needMoreData)
          (startCommand .nalNext s)) :=
  congrArg _ (nalNextBody_none (l := s.latch) (s := startCommand .nalNext s) hnone)

/-- All that NAL_NEXT can do: a unit reported, or nothing but its start and a code. -/
theorem exec_nalNext_cases (s : State) :
    (∃ i c e, FirstStartCodeAt s.ibuf s.len.toNat s.pos.toNat i c ∧
        UnitEndsAt s.ibuf s.len.toNat i c s.ctrl.eos e ∧
        exec .nalNext s = .next (nalReport s.latch i c e (startCommand .nalNext s))) ∨
      ∃ code ∈ [ResultCode.endOfStream, .noStartCode, .needMoreData, .capacityExceeded],
        exec .nalNext s = .next (complete code (startCommand .nalNext s)) := by
  obtain ⟨i, c, hfirst⟩ | hnone := first_or_no_startCode s.ibuf s.len.toNat s.pos.toNat
  · obtain ⟨e, d, hnext⟩ | hlast := first_or_no_startCode s.ibuf s.len.toNat (i + c)
    · exact .inl ⟨i, c, e, hfirst, .inl ⟨d, hnext⟩, exec_nalNext_unit hfirst (.inl ⟨d, hnext⟩)⟩
    · cases heos : s.ctrl.eos with
      | true =>
        exact .inl ⟨i, c, s.len.toNat, hfirst, .inr ⟨hlast, rfl, rfl⟩,
          exec_nalNext_unit hfirst (.inr ⟨hlast, heos, rfl⟩)⟩
      | false =>
        refine .inr ⟨_, ?_, exec_nalNext_noEnd hfirst hlast heos⟩
        obtain ⟨heos', -⟩ | ⟨-, -, hcode⟩ | ⟨-, -, hcode⟩ :=
          shortfallCode_cases s.latch (s.latch.avail + 1)
        · exact absurd (heos.symm.trans heos') (by decide)
        · rw [hcode]; decide
        · rw [hcode]; decide
  · refine .inr ⟨_, ?_, exec_nalNext_none hnone⟩
    split <;> split <;> simp

/-- Settles O28: the unit, no start code, and a unit whose end has not arrived. -/
theorem nalNextFindsTheNextUnit : Obligations.NalNextFindsTheNextUnit := by
  refine ⟨rfl, fun s hinv => ⟨fun i c e hfirst hend => ?_, fun hnone => ?_, fun i c hfirst hnone heos => ?_⟩⟩
  · rw [exec_nalNext_unit hfirst hend, nalReport_eq]
    rfl
  · rw [exec_nalNext_none hnone]
    simp only [latch_avail_eq_zero_iff hinv.pos_le_len]
    rfl
  · rw [exec_nalNext_noEnd hfirst hnone heos, shortfall, shortfallCode]
    simp only [State.latch, heos]
    rfl

/-! ## Bytes that arrive later (41_nal R136 (d)) -/

theorem StartCodeAt.congr {m m' : Memory} {len i c : Nat}
    (hm : ∀ k, k < len → Memory.read m' k = Memory.read m k) (h : StartCodeAt m len i c) :
    StartCodeAt m' len i c := by
  rcases h with ⟨rfl, hlen, h0, h1, h2, h3⟩ | ⟨rfl, hlen, h0, h1, h2⟩
  · exact .inl ⟨rfl, hlen, hm i (by omega) ▸ h0, hm (i + 1) (by omega) ▸ h1, hm (i + 2) (by omega) ▸ h2,
      hm (i + 3) (by omega) ▸ h3⟩
  · exact .inr ⟨rfl, hlen, hm i (by omega) ▸ h0, hm (i + 1) (by omega) ▸ h1, hm (i + 2) (by omega) ▸ h2⟩

/-- The first start code stays the first: below it every index is decided. -/
theorem FirstStartCodeAt.of_append {m m' : Memory} {len len' lo i c : Nat} (hle : len ≤ len')
    (hm : ∀ k, k < len → Memory.read m' k = Memory.read m k) (h : FirstStartCodeAt m len lo i c) :
    FirstStartCodeAt m' len' lo i c := by
  obtain ⟨hlo, hat, hleast⟩ := h
  have hend := hat.lt_len
  have hlength := hat.length_cases
  refine ⟨hlo, (hat.congr hm).mono hle, fun j d hj hji hat' => hleast j d hj hji ?_⟩
  have hdecided : StartCodeAt m' len j d := hat'.of_decided (by omega)
  exact hdecided.congr fun k hk => (hm k hk).symm

theorem nalReport_congr {l l' : Latch} {s s' : State} {i c e : Nat} (hp : l'.p0 = l.p0)
    (hread : i + c < e → Memory.read s'.ibuf (i + c) = Memory.read s.ibuf (i + c))
    (hs : s' = { s with ibuf := s'.ibuf, len := s'.len }) :
    nalReport l' i c e s' = { nalReport l i c e s with ibuf := s'.ibuf, len := s'.len } := by
  rw [nalReport_eq, nalReport_eq]
  by_cases hlt : i + c < e
  · simp only [hp, hread hlt]
    rw [hs]
    rfl
  · simp only [hp, if_neg hlt, decide_eq_false hlt, Bool.false_and]
    rw [hs]
    rfl

theorem complete_code_ok_iff {c : ResultCode} {s : State} : (complete c s).status.code = .ok ↔ c = .ok := Iff.rfl

/-- NAL_NEXT ends in OK only with a unit reported. -/
theorem exec_nalNext_ok {s t : State} (h : exec .nalNext s = .next t) (hok : t.status.code = .ok) :
    ∃ i c e, FirstStartCodeAt s.ibuf s.len.toNat s.pos.toNat i c ∧
      UnitEndsAt s.ibuf s.len.toNat i c s.ctrl.eos e ∧
      t = nalReport s.latch i c e (startCommand .nalNext s) := by
  obtain ⟨i, c, e, hfirst, hend, hexec⟩ | ⟨code, hcode, hexec⟩ := exec_nalNext_cases s
  · exact ⟨i, c, e, hfirst, hend, exec_unique h hexec⟩
  · obtain rfl := exec_unique h hexec
    rw [complete_code_ok_iff.mp hok] at hcode
    simp at hcode

theorem appendByte_read_below {s : State} (hinv : s.Inv) (b : Byte) {k : Nat} (hk : k < s.len.toNat) :
    Memory.read (appendByte b s).ibuf k = Memory.read s.ibuf k := by
  rw [appendByte_ibuf, Memory.read_write hinv.mem_wf, if_neg hk.ne]

/-- Settles O30: both start codes stay the first ones, and the header byte is below the old LEN. -/
theorem appendKeepsTheUnitFound : Obligations.AppendKeepsTheUnitFound := by
  intro s t b hinv heos hroom hexec hok
  obtain ⟨i, c, e, hfirst, hend, rfl⟩ := exec_nalNext_ok hexec hok
  obtain ⟨-, hbound⟩ := hend.bounds hfirst
  obtain ⟨d, hnext⟩ : ∃ d, FirstStartCodeAt s.ibuf s.len.toNat (i + c) e d :=
    hend.resolve_right fun ⟨_, heos', _⟩ => by rw [heos] at heos'; cases heos'
  have hlen : s.len.toNat ≤ (appendByte b s).len.toNat := by
    rw [appendByte_len, hinv.len_succ_toNat hroom]
    exact Nat.le_succ _
  have hread := fun k (hk : k < s.len.toNat) => appendByte_read_below hinv b hk
  rw [exec_nalNext_unit (s := appendByte b s) (hfirst.of_append hlen hread)
    (.inl ⟨d, hnext.of_append hlen hread⟩)]
  exact congrArg _ (nalReport_congr rfl (fun hlt => hread _ (hlt.trans_le hbound)) rfl)

/-! ## Sessions (41_nal R139) -/

/-- A number up to a register's value is held by a register exactly. -/
theorem word_ofN_toNat_of_le {n : Nat} {w : Word} (h : n ≤ w.toNat) : (Word.ofN n).toNat = n :=
  Nat.mod_eq_of_lt (h.trans_lt w.isLt)

/-- `t` is `s` after a unit with start code of `c` bytes at `i` and end `e` was reported. -/
structure UnitReported (s t : State) (i c e : Nat) : Prop where
  code : t.status.code = .ok
  pos : t.pos.toNat = e
  consumed : t.consumed.toNat = e - s.pos.toNat
  scOff : t.nal.scOff.toNat = i
  scLen : t.nal.scLen.toNat = c
  payOff : t.nal.payOff.toNat = i + c
  payLen : t.nal.payLen.toNat = e - (i + c)
  ibuf : t.ibuf = s.ibuf
  len : t.len = s.len
  ctrl : t.ctrl = s.ctrl

theorem issue_nalNext_unit {s : State} {i c e : Nat} (hfirst : FirstStartCodeAt s.ibuf s.len.toNat s.pos.toNat i c)
    (hend : UnitEndsAt s.ibuf s.len.toNat i c s.ctrl.eos e) :
    ∃ t, issue .nalNext s = .next t ∧ UnitReported s t i c e := by
  obtain ⟨hqe, hbound⟩ := hend.bounds hfirst
  refine ⟨_, exec_nalNext_unit (s := acceptCommand (encode .nalNext) s) hfirst hend, ?_⟩
  rw [nalReport_eq]
  exact
    { code := rfl
      pos := word_ofN_toNat_of_le hbound
      consumed := word_ofN_toNat_of_le ((Nat.sub_le ..).trans hbound)
      scOff := word_ofN_toNat_of_le (((Nat.le_add_right ..).trans hqe).trans hbound)
      scLen := by obtain rfl | rfl := hfirst.2.1.length_cases <;> rfl
      payOff := word_ofN_toNat_of_le (hqe.trans hbound)
      payLen := word_ofN_toNat_of_le ((Nat.sub_le ..).trans hbound)
      ibuf := rfl
      len := rfl
      ctrl := rfl }

theorem issue_nalNext_end {s : State} (heos : s.ctrl.eos = true) (hend : s.pos = s.len) :
    ∃ v, issue .nalNext s = .next v ∧ v.status.code = .endOfStream := by
  have hnone : NoStartCodeFrom s.ibuf s.len.toNat s.pos.toNat := fun i c hi hat => by
    have hbound := hat.lt_len
    have hlength := hat.length_cases
    rw [hend] at hi
    omega
  have havail : s.latch.avail = 0 := (latch_avail_eq_zero_iff (hend ▸ le_rfl)).mpr hend
  refine ⟨_, exec_nalNext_none (s := acceptCommand (encode .nalNext) s) hnone, ?_⟩
  simp only [complete_status, status_raise_code]
  exact (if_pos heos).trans (if_pos havail)

/-- A start code at the cursor is the first one from it. -/
theorem StartCodeAt.first {m : Memory} {len i c : Nat} (h : StartCodeAt m len i c) :
    FirstStartCodeAt m len i i c :=
  ⟨le_rfl, h, fun _ _ hj hji => absurd hj hji.not_ge⟩

/-- The bytes of the reported units of a session, in order. -/
def unitBytes (m : Memory) (ts : List State) : List Byte :=
  ts.flatMap fun t =>
    bytesAt m t.nal.scOff.toNat t.nal.scLen.toNat ++ bytesAt m t.nal.payOff.toNat t.nal.payLen.toNat

/-- A session that reconstructs the bytes from the cursor to LEN. -/
structure Reconstructs (s : State) (ts : List State) (u : State) : Prop where
  session : OkSession .nalNext s ts u
  pos : u.pos = s.len
  consumed : (ts.map fun t => t.consumed.toNat).sum = s.len.toNat - s.pos.toNat
  bytes : unitBytes s.ibuf ts = bytesAt s.ibuf s.pos.toNat (s.len.toNat - s.pos.toNat)
  final : ∃ v, issue .nalNext u = .next v ∧ v.status.code = .endOfStream

/-- One unit, and a session from its end on. -/
theorem Reconstructs.cons {s t u : State} {c e : Nat} {ts : List State} (hissue : issue .nalNext s = .next t)
    (ht : UnitReported s t s.pos.toNat c e) (hqe : s.pos.toNat + c ≤ e) (hbound : e ≤ s.len.toNat)
    (rest : Reconstructs t ts u) : Reconstructs s (t :: ts) u where
  session := .more hissue ht.code rest.session
  pos := rest.pos.trans ht.len
  consumed := by
    rw [List.map_cons, List.sum_cons, rest.consumed, ht.consumed, ht.len, ht.pos]
    omega
  bytes := by
    have hsplit : s.len.toNat - s.pos.toNat = c + (e - (s.pos.toNat + c)) + (s.len.toNat - e) := by omega
    have hmid : s.pos.toNat + (c + (e - (s.pos.toNat + c))) = e := by omega
    have hrest := rest.bytes
    rw [ht.ibuf, ht.len, ht.pos] at hrest
    rw [hsplit, bytesAt_add, bytesAt_add, hmid, ← hrest]
    simp only [unitBytes, List.flatMap_cons, ht.scOff, ht.scLen, ht.payOff, ht.payLen]
  final := rest.final

/-- At the end of the stream the empty session. -/
theorem Reconstructs.nil {s : State} (heos : s.ctrl.eos = true) (hend : s.pos = s.len) : Reconstructs s [] s where
  session := .done s
  pos := hend
  consumed := by rw [hend, Nat.sub_self]; rfl
  bytes := by rw [hend, Nat.sub_self]; rfl
  final := issue_nalNext_end heos hend

/-- By induction on the bytes left: each unit begins at the cursor and ends further on. -/
theorem exists_reconstructs (n : Nat) : ∀ s : State, s.len.toNat - s.pos.toNat = n → s.ctrl.eos = true →
    (∃ c, StartCodeAt s.ibuf s.len.toNat s.pos.toNat c) → ∃ ts u, Reconstructs s ts u := by
  induction n using Nat.strong_induction_on with
  | _ n ih =>
    rintro s hn heos ⟨c, hat⟩
    have hlength := hat.length_cases
    obtain ⟨e, d, hnext⟩ | hnone := first_or_no_startCode s.ibuf s.len.toNat (s.pos.toNat + c)
    · obtain ⟨t, hissue, ht⟩ := issue_nalNext_unit hat.first (.inl ⟨d, hnext⟩)
      obtain ⟨hqe, hnextAt, -⟩ := hnext
      have hbound := hnextAt.lt_len
      have hless : t.len.toNat - t.pos.toNat < n := by rw [ht.len, ht.pos]; omega
      obtain ⟨ts, u, hrest⟩ := ih _ hless t rfl (ht.ctrl ▸ heos)
        ⟨d, by rw [ht.ibuf, ht.len, ht.pos]; exact hnextAt⟩
      exact ⟨t :: ts, u, .cons hissue ht hqe (by omega) hrest⟩
    · obtain ⟨t, hissue, ht⟩ := issue_nalNext_unit hat.first (.inr ⟨hnone, heos, rfl⟩)
      have hend : t.pos = t.len := BitVec.eq_of_toNat_eq (by rw [ht.pos, ht.len])
      exact ⟨[t], t, .cons hissue ht hat.lt_len le_rfl (.nil (ht.ctrl ▸ heos) hend)⟩

/-- Settles O29, from `exists_reconstructs`. -/
theorem nalSessionReconstructsTheStream : Obligations.NalSessionReconstructsTheStream := by
  intro s _ heos hat
  obtain ⟨ts, u, h⟩ := exists_reconstructs _ s rfl heos hat
  exact ⟨ts, u, h.session, h.pos, h.consumed, h.bytes, h.final⟩

end Sys2Proof.Machine
end

section
/-! Proofs about sessions of ADTS_NEXT and TS_NEXT (O32, O45). -/

namespace Sys2Proof.Machine

/-! ## ADTS_NEXT (42_adts R150, R157) -/

theorem first_or_no_syncWord (m : Memory) (len lo : Nat) :
    (∃ i, FirstSyncWordAt m len lo i) ∨ ∀ i, lo ≤ i → ¬ SyncWordAt m len i := by
  cases h : leastSome (syncAt m len) (len - lo) lo with
  | some ia =>
    obtain ⟨hlo, -, hat, hleast⟩ := (leastSome_eq_some ..).mp h
    exact .inl ⟨ia.1, hlo, syncAt_eq_some_iff.mp hat, fun j hj hji => syncAt_eq_none_iff.mp (hleast j hj hji)⟩
  | none =>
    refine .inr fun i hi hat => ?_
    have hend : i + 1 < len := hat.1
    exact syncAt_eq_none_iff.mp ((leastSome_eq_none ..).mp h i hi (by omega)) hat

/-- FRAME_LENGTH of the header at `i`. -/
def frameLengthAt (m : Memory) (i : Nat) : Nat := (adtsHeader m i).frameLength.toNat

/-- HDR_LEN of the header at `i`. -/
def headerLengthAt (m : Memory) (i : Nat) : Nat := adtsHeaderLen (adtsHeader m i).protAbsent

/-- What ADTS_NEXT leaves after a whole frame at `i`. -/
def adtsFrameState (i : Nat) (s : State) : State :=
  adtsReport s.latch i
    { startCommand .adtsNext s with skipped := Word.ofN (i - s.pos.toNat), adts := adtsHeader s.ibuf i }

/-- What ADTS_NEXT leaves without a whole frame: CODE, SKIPPED and G_ADTS alone are written. -/
def adtsNoFrameState (code : ResultCode) (so : Word) (g : GAdts) (s : State) : State :=
  complete code { startCommand .adtsNext s with skipped := so, adts := g }

/-- The codes of ADTS_NEXT without a frame (42_adts R158). -/
def adtsNoFrameCodes : List ResultCode :=
  [.endOfStream, .needMoreData, .noSyncWord, .malformedHeader, .truncated, .capacityExceeded]

theorem shortfallCode_mem (l : Latch) (need : Nat) :
    shortfallCode l need ∈ [ResultCode.truncated, .capacityExceeded, .needMoreData] := by
  obtain ⟨-, h⟩ | ⟨-, -, h⟩ | ⟨-, -, h⟩ := shortfallCode_cases l need <;> rw [h] <;> decide

theorem shortfallCode_mem_adtsNoFrameCodes (l : Latch) (need : Nat) :
    shortfallCode l need ∈ adtsNoFrameCodes := by
  have hsub : ∀ c ∈ [ResultCode.truncated, .capacityExceeded, .needMoreData], c ∈ adtsNoFrameCodes := by decide
  exact hsub _ (shortfallCode_mem l need)

/-- All that ADTS_NEXT can do: a whole frame reported, or none. -/
theorem exec_adtsNext_cases (s : State) :
    (∃ i, FirstSyncWordAt s.ibuf s.len.toNat s.pos.toNat i ∧
        headerLengthAt s.ibuf i ≤ frameLengthAt s.ibuf i ∧ i + frameLengthAt s.ibuf i ≤ s.len.toNat ∧
        exec .adtsNext s = .next (adtsFrameState i s)) ∨
      ∃ code ∈ adtsNoFrameCodes, ∃ so g, (g = GAdts.zero ∨ ∃ i, g = adtsHeader s.ibuf i) ∧
        exec .adtsNext s = .next (adtsNoFrameState code so g s) := by
  obtain ⟨i, hfirst⟩ | hnone := first_or_no_syncWord s.ibuf s.len.toNat s.pos.toNat
  · rw [exec_adtsNext_of_first hfirst]
    by_cases h7 : 7 ≤ s.latch.len - i
    · by_cases hfl : headerLengthAt s.ibuf i ≤ frameLengthAt s.ibuf i
      · by_cases hend : frameLengthAt s.ibuf i ≤ s.latch.len - i
        · have hlen : i + frameLengthAt s.ibuf i ≤ s.len.toNat := by
            simp only [State.latch] at h7 hend
            omega
          exact .inl ⟨i, hfirst, hfl, hlen,
            congrArg _ (adtsFromSync_whole (s := startCommand .adtsNext s) h7 hfl hend)⟩
        · exact .inr ⟨_, shortfallCode_mem_adtsNoFrameCodes .., _, _, .inr ⟨i, rfl⟩,
            congrArg _ (adtsFromSync_partial (s := startCommand .adtsNext s) h7 hfl (not_le.mp hend))⟩
      · exact .inr ⟨.malformedHeader, by decide, _, _, .inr ⟨i, rfl⟩,
          congrArg _ (adtsFromSync_malformed (s := startCommand .adtsNext s) h7 (not_le.mp hfl))⟩
    · exact .inr ⟨_, shortfallCode_mem_adtsNoFrameCodes .., _, GAdts.zero, .inl rfl,
        congrArg _ (adtsFromSync_short (s := startCommand .adtsNext s) (not_le.mp h7))⟩
  · refine .inr ⟨_, ?_, 0#32, GAdts.zero, .inl rfl, exec_adtsNext_of_none hnone⟩
    split
    · split <;> decide
    · decide

/-- `t` is `s` after a whole frame of `fl` bytes at `i`. -/
structure FrameReported (s t : State) (i fl : Nat) : Prop where
  pos_le : s.pos.toNat ≤ i
  le_len : i + fl ≤ s.len.toNat
  pos : t.pos.toNat = i + fl
  skipped : t.skipped.toNat = i - s.pos.toNat
  frameLength : t.adts.frameLength.toNat = fl
  len : t.len = s.len

theorem issue_adtsNext_ok {s t : State} (h : issue .adtsNext s = .next t) (hok : t.status.code = .ok) :
    ∃ i fl, FrameReported s t i fl := by
  obtain ⟨i, hfirst, -, hlen, hexec⟩ | ⟨code, hcode, so, g, -, hexec⟩ :=
    exec_adtsNext_cases (acceptCommand (encode .adtsNext) s)
  · obtain rfl := exec_unique h hexec
    have hpos : s.pos.toNat ≤ i := hfirst.1
    have hlen' : i + frameLengthAt s.ibuf i ≤ s.len.toNat := hlen
    refine ⟨i, frameLengthAt s.ibuf i, hpos, hlen', word_ofN_toNat_of_le hlen',
      word_ofN_toNat_of_le (w := s.len) ?_, rfl, rfl⟩
    simp only [acceptCommand_pos]
    omega
  · obtain rfl := exec_unique h hexec
    obtain rfl : code = .ok := hok
    exact absurd hcode (by decide)

/-- Settles O32, by induction on the session: each frame moves the cursor over its skipped bytes and itself. -/
theorem adtsSessionAccountsForEveryByte : Obligations.AdtsSessionAccountsForEveryByte := by
  intro s u ts hinv hsession
  have hle : s.pos.toNat ≤ s.len.toNat := hinv.pos_le_len
  clear hinv
  induction hsession with
  | done s => simp
  | more hissue hok _ ih =>
    obtain ⟨i, fl, hframe⟩ := issue_adtsNext_ok hissue hok
    obtain ⟨hpos_le, hle_len, hpos, hskipped, hfl, hlen⟩ := hframe
    have hrest := ih (by rw [hpos, hlen]; exact hle_len)
    rw [hpos, hlen] at hrest
    rw [List.map_cons, List.sum_cons, hskipped, hfl]
    omega

/-! ## TS_NEXT (44_rtp R220, R222) -/

/-- `t` is `s` after the stride at NEXT_OFF was reported. -/
structure StrideReported (s t : State) : Prop where
  code : t.status.code = .ok
  pktOff : t.ts.pktOff = s.tsIter.nextOff
  index : t.ts.index.toNat = s.tsIter.nextIndex.toNat
  ibuf : t.ibuf = s.ibuf
  active : t.tsIter.active = true
  nextIndex : t.tsIter.nextIndex.toNat = (s.tsIter.nextIndex.toNat + 1) % 65536
  nextOff : t.tsIter.nextOff.toNat = s.tsIter.nextOff.toNat + 188
  endOff : t.tsIter.endOff = s.tsIter.endOff

theorem exec_tsNext_packet {s : State} (hactive : s.tsIter.active = true)
    (hroom : s.tsIter.nextOff.toNat + 188 ≤ s.tsIter.endOff.toNat)
    (hsync : Memory.read s.ibuf s.tsIter.nextOff.toNat = 0x47#8) :
    exec .tsNext s = .next (tsReport s.tsIter.nextOff.toNat (storeStride (startCommand .tsNext s))) :=
  congrArg _ (tsNextBody_packet (s := startCommand .tsNext s) hactive (Nat.le_sub_of_add_le' hroom) hsync)

theorem exec_tsNext_exhausted {s : State} (hactive : s.tsIter.active = true)
    (hend : s.tsIter.endOff.toNat - s.tsIter.nextOff.toNat < 188) :
    exec .tsNext s = .next (complete .endOfStream (cancelIterator (startCommand .tsNext s))) :=
  congrArg _ (tsNextBody_exhausted (s := startCommand .tsNext s) hactive hend)

theorem issue_tsNext_stride {s : State} (hactive : s.tsIter.active = true)
    (hroom : s.tsIter.nextOff.toNat + 188 ≤ s.tsIter.endOff.toNat)
    (hsync : Memory.read s.ibuf s.tsIter.nextOff.toNat = 0x47#8) :
    ∃ t, issue .tsNext s = .next t ∧ StrideReported s t := by
  have hindex : s.tsIter.nextIndex.toNat < 2 ^ 32 := s.tsIter.nextIndex.isLt.trans (by decide)
  refine ⟨_, exec_tsNext_packet (s := acceptCommand (encode .tsNext) s) hactive hroom hsync, ?_⟩
  rw [tsReport_of_active (s := storeStride (startCommand .tsNext (acceptCommand (encode .tsNext) s))) _ hactive]
  exact
    { code := rfl
      pktOff := word_ofN_toNat _
      index := (BitVec.toNat_setWidth ..).trans (Nat.mod_eq_of_lt hindex)
      ibuf := rfl
      active := rfl
      nextIndex := rfl
      nextOff := word_ofN_toNat_of_le hroom
      endOff := rfl }

theorem issue_tsNext_end {s : State} (hactive : s.tsIter.active = true)
    (hend : s.tsIter.endOff.toNat - s.tsIter.nextOff.toNat < 188) :
    ∃ v, issue .tsNext s = .next v ∧ v.status.code = .endOfStream ∧ v.tsIter = TsIter.zero :=
  ⟨_, exec_tsNext_exhausted (s := acceptCommand (encode .tsNext) s) hactive hend, rfl, rfl⟩

/-- A session over the strides from NEXT_OFF on, and END_OF_STREAM after it. -/
structure ReportsStrides (s : State) (ts : List State) (u : State) : Prop where
  session : OkSession .tsNext s ts u
  stride : ∀ (k : Nat) (t : State), ts[k]? = some t →
    t.ts.pktOff.toNat = s.tsIter.nextOff.toNat + 188 * k ∧
      t.ts.index.toNat = (s.tsIter.nextIndex.toNat + k) % 65536
  final : ∃ v, issue .tsNext u = .next v ∧ v.status.code = .endOfStream ∧ v.tsIter = TsIter.zero

theorem ReportsStrides.cons {s t u : State} {ts : List State} (hissue : issue .tsNext s = .next t)
    (ht : StrideReported s t) (rest : ReportsStrides t ts u) : ReportsStrides s (t :: ts) u where
  session := .more hissue ht.code rest.session
  stride := by
    rintro (_ | k) r hr
    · obtain rfl : t = r := by simpa using hr
      have hindex := s.tsIter.nextIndex.isLt
      rw [ht.pktOff, ht.index]
      omega
    · obtain ⟨hpkt, hindex⟩ := rest.stride k r (by simpa using hr)
      rw [hpkt, hindex, ht.nextOff, ht.nextIndex]
      omega
  final := rest.final

/-- By induction on the number of whole strides left. -/
theorem exists_reportsStrides (n : Nat) : ∀ s : State, s.tsIter.active = true →
    n = (s.tsIter.endOff.toNat - s.tsIter.nextOff.toNat) / 188 →
    (∀ k, k < n → Memory.read s.ibuf (s.tsIter.nextOff.toNat + 188 * k) = 0x47#8) →
    ∃ ts u, ts.length = n ∧ ReportsStrides s ts u := by
  induction n with
  | zero =>
    intro s hactive hn _
    exact ⟨[], s, rfl, .done s, by simp, issue_tsNext_end hactive (by omega)⟩
  | succ n ih =>
    intro s hactive hn hsync
    obtain ⟨t, hissue, ht⟩ := issue_tsNext_stride hactive (by omega) (hsync 0 (by omega))
    obtain ⟨ts, u, hlen, hrest⟩ := ih t ht.active (by rw [ht.endOff, ht.nextOff]; omega) fun k hk => by
      have hidx : t.tsIter.nextOff.toNat + 188 * k = s.tsIter.nextOff.toNat + 188 * (k + 1) := by
        rw [ht.nextOff]; omega
      rw [ht.ibuf, hidx]
      exact hsync (k + 1) (by omega)
    exact ⟨t :: ts, u, by rw [List.length_cons, hlen], .cons hissue ht hrest⟩

/-- Settles O45, from `exists_reportsStrides` at index 0. -/
theorem tsSessionReportsEveryStride : Obligations.TsSessionReportsEveryStride := by
  rintro s x n _ hactive hindex rfl hn hsync
  obtain ⟨ts, u, hlen, hsession, hstride, v, hissue, hcode, hiter⟩ :=
    exists_reportsStrides n s hactive hn hsync
  refine ⟨ts, u, v, hsession, hlen, fun k t hk => ?_, hissue, hcode, hiter⟩
  simpa [hindex] using hstride k t hk

end Sys2Proof.Machine
end

section
/-! Proofs of the FLV tag family (O34, O35, O36, O42): FLV_NEXT_TAG branch by branch, and what the AMF decoder
leaves. -/

namespace Sys2Proof.Machine

/-! ## What the AMF decoder leaves (43_flv R190, R195) -/

/-- The legal rows of the META table (10_state R36). -/
def RowsLegal (rows : Vector MetaRow 12) : Prop :=
  ∀ i, ((rows.get i).present = false → rows.get i = MetaRow.zero) ∧ (rows.get i).amfType.toNat ≤ 2

/-- What holds while the decoder runs. -/
structure AmfRunning (cur : AmfCur) : Prop where
  decoded : cur.amf.decoded = true
  whole : cur.amf.partialDecode = false
  rows : RowsLegal cur.rows

/-- What holds when the decoder has ended (43_flv R195). -/
structure AmfEnded (r : ResultCode × AmfCur) : Prop where
  decoded : r.2.amf.decoded = true
  code : r.1 = .ok ∨ r.1 = .unsupportedCodec ∨ r.1 = .malformedHeader
  partial_iff : r.2.amf.partialDecode = true ↔ r.1 ≠ .ok
  rows : RowsLegal r.2.rows

/-- A stage that goes on with a running decoder or ends with an ended one. -/
def AmfKeeps (x : AmfStep) : Prop := (∀ c, x = .ok c → AmfRunning c) ∧ ∀ e, x = .error e → AmfEnded e

theorem amfKeeps_ok {c : AmfCur} (h : AmfRunning c) : AmfKeeps (.ok c) :=
  ⟨fun _ hc => Except.ok.inj hc ▸ h, fun _ he => nomatch he⟩

theorem amfKeeps_error {e : ResultCode × AmfCur} (h : AmfEnded e) : AmfKeeps (.error e) :=
  ⟨fun _ hc => (nomatch hc), fun _ he => Except.error.inj he ▸ h⟩

theorem amfKeeps_bind {x : AmfStep} {f : AmfCur → AmfStep} (hx : AmfKeeps x)
    (hf : ∀ c, AmfRunning c → AmfKeeps (f c)) : AmfKeeps (x >>= f) := by
  cases x with
  | ok c => exact hf c (hx.1 c rfl)
  | error e => exact amfKeeps_error (hx.2 e rfl)

theorem AmfRunning.stop {cur : AmfCur} (h : AmfRunning cur) {c : ResultCode}
    (hc : c = .ok ∨ c = .unsupportedCodec ∨ c = .malformedHeader) : AmfEnded (amfStop c cur) where
  decoded := h.decoded
  code := hc
  partial_iff := by simp [amfStop, h.whole]
  rows := h.rows

theorem AmfRunning.skip {cur : AmfCur} (h : AmfRunning cur) (a : Nat) : AmfRunning (cur.skip a) := ⟨h.1, h.2, h.3⟩

theorem AmfRunning.unsupported {cur : AmfCur} (h : AmfRunning cur) (t : Byte) :
    AmfEnded (amfUnsupported t cur) :=
  AmfRunning.stop (cur := { cur with amf := { cur.amf with stopType := t } }) ⟨h.1, h.2, h.3⟩ (.inr (.inl rfl))

theorem AmfRunning.need {cur : AmfCur} (h : AmfRunning cur) (n k : Nat) : AmfKeeps (amfNeed n k cur) := by
  unfold amfNeed
  split
  · exact amfKeeps_error (h.stop (.inr (.inr rfl)))
  · exact amfKeeps_ok h

theorem rowsLegal_zero : RowsLegal metaRowsZero := fun i => by
  rw [metaRowsZero_get]
  exact ⟨fun _ => rfl, by decide⟩

theorem AmfRunning.store {cur : AmfCur} (h : AmfRunning cur) (row : Option (Fin 12)) {t : Byte} (hi lo : Word)
    (ht : t.toNat ≤ 2) : AmfRunning (amfStore row t hi lo cur) := by
  cases row with
  | none => exact h
  | some r =>
    refine ⟨h.decoded, h.whole, fun i => ?_⟩
    rw [amfStore_some_rows_get]
    split
    · exact ⟨nofun, ht⟩
    · exact h.rows i

section Stages
variable {m : Memory} {p n : Nat} {cur : AmfCur}

theorem AmfRunning.name (h : AmfRunning cur) : AmfKeeps (amfName m p n cur) := by
  refine amfKeeps_bind (h.need n 1) fun c hc => ?_
  dsimp only
  split
  · exact amfKeeps_error (hc.unsupported _)
  refine amfKeeps_bind ((hc.skip 1).need n 2) fun c hc => amfKeeps_bind ((hc.skip 2).need n _) fun c hc => ?_
  exact amfKeeps_ok ⟨hc.decoded, hc.whole, hc.rows⟩

theorem AmfRunning.arrayHead (h : AmfRunning cur) : AmfKeeps (amfArrayHead m p n cur) := by
  unfold amfArrayHead
  dsimp only
  split
  · exact amfKeeps_error (h.unsupported _)
  exact amfKeeps_bind ((h.skip 1).need n 4) fun c hc => amfKeeps_ok ⟨hc.decoded, hc.whole, hc.rows⟩

theorem AmfRunning.value (h : AmfRunning cur) (row : Option (Fin 12)) : AmfKeeps (amfValue m p n row cur) := by
  refine amfKeeps_bind (h.need n 1) fun c hc => ?_
  dsimp only
  split
  next ht =>
    exact amfKeeps_bind ((hc.skip 1).need n 8) fun c hc =>
      amfKeeps_ok ((hc.store row _ _ (by rw [ht]; decide)).skip 8)
  split
  next ht =>
    exact amfKeeps_bind ((hc.skip 1).need n 1) fun c hc =>
      amfKeeps_ok ((hc.store row _ _ (by rw [ht]; decide)).skip 1)
  split
  next ht =>
    exact amfKeeps_bind ((hc.skip 1).need n 2) fun c hc =>
      amfKeeps_bind ((hc.skip 2).need n _) fun c hc =>
        amfKeeps_ok ((hc.store row _ _ (by rw [ht]; decide)).skip _)
  · exact amfKeeps_error (hc.unsupported _)

theorem AmfRunning.pair (h : AmfRunning cur) : AmfKeeps (amfPair m p n cur) :=
  amfKeeps_bind (h.need n 2) fun _ hc => amfKeeps_bind ((hc.skip 2).need n _) fun _ hc =>
    amfKeeps_bind ((hc.skip _).value _) fun _ hc => amfKeeps_ok ⟨hc.decoded, hc.whole, hc.rows⟩

theorem AmfRunning.pairs (h : AmfRunning cur) (cnt : Nat) : AmfKeeps (amfPairs m p n cnt cur) := by
  induction cnt generalizing cur with
  | zero => exact amfKeeps_ok h
  | succ cnt ih => exact amfKeeps_bind h.pair fun _ hc => ih hc

theorem AmfRunning.marker (h : AmfRunning cur) :
    AmfRunning { cur with k := cur.k + 3, amf := { cur.amf with endSeen := true } } := ⟨h.1, h.2, h.3⟩

theorem AmfRunning.atEnd (h : AmfRunning cur) : AmfEnded (amfEnd m p n cur) := by
  unfold amfEnd
  split
  next e he => exact (h.need n 3).2 e he
  next c hc =>
    have hrun := (h.need n 3).1 c hc
    split
    · exact hrun.stop (.inr (.inr rfl))
    dsimp only
    split
    · exact hrun.marker.stop (.inr (.inr rfl))
    · exact hrun.marker.stop (.inl rfl)

theorem AmfRunning.array (h : AmfRunning cur) : AmfEnded (amfArray m p n cur) := by
  have hkeeps : AmfKeeps (amfArrayHead m p n cur >>= fun c => amfPairs m p n c.amf.count.toNat c) :=
    amfKeeps_bind h.arrayHead fun _ hc => hc.pairs _
  unfold amfArray
  split
  next e he => exact hkeeps.2 e he
  next c hc => exact (hkeeps.1 c hc).atEnd

end Stages

/-- The decoder's outcome, from a cleared G_AMF (43_flv R195). -/
theorem amfDecode_ended (m : Memory) (p n : Nat) {rows : Vector MetaRow 12} (h : RowsLegal rows) :
    AmfEnded (amfDecode m p n GAmf.zero rows) := by
  have hkeeps : AmfKeeps (amfName m p n (decoderStart rows)) := AmfRunning.name ⟨rfl, rfl, h⟩
  unfold amfDecode
  split
  next e he => exact hkeeps.2 e he
  next c hc =>
    have hrun := hkeeps.1 c hc
    split
    · exact hrun.stop (.inl rfl)
    · exact hrun.array

/-! ## FLV_NEXT_TAG (43_flv R180) -/

/-- data_size has three bytes (30_encoding R91). -/
theorem flvDataSize_lt (m : Memory) (t : Nat) : flvDataSize m t < 16777216 := memRead_lt m (t + 1) 3

section Body
variable {l : Latch} {s : State}

theorem flvNextTagBody_short (h : l.avail < 15) :
    flvNextTagBody l s = complete (if l.eos then .endOfStream else shortfallCode l 15) s := by
  rw [flvNextTagBody, if_pos h]
  exact (apply_ite (complete · s) ..).symm

theorem flvNextTagBody_partial (h15 : 15 ≤ l.avail) (h : l.avail < 15 + flvDataSize s.ibuf (l.p0 + 4)) :
    flvNextTagBody l s =
      shortfall l (15 + flvDataSize s.ibuf (l.p0 + 4)) (storeTagHeader l.p0 s) := by
  rw [flvNextTagBody, if_neg h15.not_gt]
  exact if_pos h

theorem flvNextTagBody_whole (h : 15 + flvDataSize s.ibuf (l.p0 + 4) ≤ l.avail) :
    flvNextTagBody l s =
      flvPayload (tagKind (Memory.read s.ibuf (l.p0 + 4))) (l.p0 + 15) (flvDataSize s.ibuf (l.p0 + 4))
        (consumeTag l (storeTagHeader l.p0 s)) := by
  have h15 : ¬ l.avail < 15 := by omega
  rw [flvNextTagBody, if_neg h15]
  exact if_neg h.not_gt

end Body

section Payload
variable {p ds : Nat} (s : State)

theorem flvPayload_audio (h : ds ≠ 0) :
    flvPayload .audio p ds s =
      complete .ok
        { s with
          flvt :=
            { s.flvt with
              audio := Memory.read s.ibuf p
              esOff := Word.ofN (p + 1)
              esLen := Word.ofN (ds - 1) } } :=
  if_neg h

theorem flvPayload_video (h : ds ≠ 0) :
    flvPayload .video p ds s =
      complete .ok
        { s with
          flvt :=
            { s.flvt with
              video := Memory.read s.ibuf p
              esOff := Word.ofN (p + 1)
              esLen := Word.ofN (ds - 1) } } :=
  if_neg h

theorem flvPayload_empty {kind : TagKind} (hkind : kind = .audio ∨ kind = .video) (h : ds = 0) :
    flvPayload kind p ds s = complete .malformedHeader s := by
  obtain rfl | rfl := hkind <;> exact if_pos h

end Payload

/-- The tag's data_size when its header is at the cursor. -/
def tagDataSize (s : State) : Nat := flvDataSize s.ibuf (s.pos.toNat + 4)

/-- The script decoder's run on the tag at the cursor. -/
def tagScript (s : State) : ResultCode × AmfCur :=
  amfDecode s.ibuf (s.pos.toNat + 15) (tagDataSize s) GAmf.zero metaRowsZero

/-- The fields of G_FLVT that the tag header gives (30_encoding R91, 43_flv R182, R186). -/
def tagHeader (s : State) : GFlvt :=
  { GFlvt.zero with
    tagType := Memory.read s.ibuf (s.pos.toNat + 4)
    kind := tagKind (Memory.read s.ibuf (s.pos.toNat + 4))
    reservedHi := Memory.read s.ibuf (s.pos.toNat + 4 + 7)
    prevSize := Word.ofN (memRead s.ibuf s.pos.toNat 4)
    dataSize := BitVec.ofNat 24 (tagDataSize s)
    timestamp := BitVec.ofNat 24 (memRead s.ibuf (s.pos.toNat + 4 + 4) 3)
    streamId := BitVec.ofNat 24 (memRead s.ibuf (s.pos.toNat + 4 + 8) 3)
    tagOff := Word.ofN (s.pos.toNat + 4)
    payOff := Word.ofN (s.pos.toNat + 4 + 11)
    emitPts := Word.ofN (11 + tagDataSize s) }

/-- The tag header with the check of its PreviousTagSize (43_flv R183). -/
def tagChecked (s : State) : GFlvt :=
  { tagHeader s with
    ptsChecked := s.flvPrev.valid
    ptsMismatch := s.flvPrev.valid && decide (memRead s.ibuf s.pos.toNat 4 ≠ 11 + s.flvPrev.ds.toNat) }

/-- FLV_NEXT_TAG's start and the tag header stored. -/
def tagStored (s : State) : State :=
  { s with
    consumed := 0#32
    skipped := 0#32
    flvt := tagHeader s
    amf := GAmf.zero
    metaRows := metaRowsZero }

/-- The tag consumed, before its payload is looked at. -/
def tagConsumed (s : State) : State :=
  { s with
    pos := Word.ofN (s.pos.toNat + 15 + tagDataSize s)
    consumed := Word.ofN (15 + tagDataSize s)
    skipped := 0#32
    flvt := tagChecked s
    flvPrev := ⟨true, BitVec.ofNat 24 (tagDataSize s)⟩
    amf := GAmf.zero
    metaRows := metaRowsZero }

-- Unfolded by `rw`, here and below: comparing `tagConsumed s` with `s` as a whole, the kernel would evaluate the
-- stored numbers.
@[simp] theorem tagConsumed_ibuf (s : State) : (tagConsumed s).ibuf = s.ibuf := by rw [tagConsumed]
@[simp] theorem tagConsumed_status (s : State) : (tagConsumed s).status = s.status := by rw [tagConsumed]
@[simp] theorem tagConsumed_amf (s : State) : (tagConsumed s).amf = GAmf.zero := by rw [tagConsumed]
@[simp] theorem tagConsumed_metaRows (s : State) : (tagConsumed s).metaRows = metaRowsZero := by rw [tagConsumed]

theorem startCommand_flvNextTag (s : State) :
    startCommand .flvNextTag s =
      { s with
        consumed := 0#32, skipped := 0#32, flvt := GFlvt.zero, amf := GAmf.zero, metaRows := metaRowsZero } := rfl

theorem storeTagHeader_start (s : State) :
    storeTagHeader s.pos.toNat (startCommand .flvNextTag s) = tagStored s := by
  rw [startCommand_flvNextTag, storeTagHeader, tagStored, tagHeader, tagDataSize]

theorem consumeTag_stored (s : State) : consumeTag s.latch (tagStored s) = tagConsumed s := by
  have hbne : (memRead s.ibuf s.pos.toNat 4 != 11 + s.flvPrev.ds.toNat) =
      decide (memRead s.ibuf s.pos.toNat 4 ≠ 11 + s.flvPrev.ds.toNat) := by
    simp [bne, Bool.beq_eq_decide_eq]
  rw [consumeTag, consumeTo_add, tagStored, tagConsumed, tagChecked, ← hbne, tagDataSize, Nat.add_assoc]
  rfl

section Exec
variable {s : State}

theorem exec_flvNextTag_short (h : s.len.toNat - s.pos.toNat < 15) :
    exec .flvNextTag s =
      .next (complete (if s.ctrl.eos then .endOfStream else shortfallCode s.latch 15)
        (startCommand .flvNextTag s)) :=
  congrArg _ (flvNextTagBody_short (l := s.latch) (s := startCommand .flvNextTag s) h)

theorem exec_flvNextTag_partial (h15 : 15 ≤ s.len.toNat - s.pos.toNat)
    (h : s.len.toNat - s.pos.toNat < 15 + tagDataSize s) :
    exec .flvNextTag s = .next (shortfall s.latch (15 + tagDataSize s) (tagStored s)) := by
  rw [← storeTagHeader_start]
  exact congrArg _ (flvNextTagBody_partial (l := s.latch) (s := startCommand .flvNextTag s) h15 h)

theorem exec_flvNextTag_whole {kind : TagKind} (h : 15 + tagDataSize s ≤ s.len.toNat - s.pos.toNat)
    (hkind : tagKind (Memory.read s.ibuf (s.pos.toNat + 4)) = kind) :
    exec .flvNextTag s = .next (flvPayload kind (s.pos.toNat + 15) (tagDataSize s) (tagConsumed s)) := by
  rw [← hkind, ← consumeTag_stored, ← storeTagHeader_start]
  exact congrArg _ (flvNextTagBody_whole (l := s.latch) (s := startCommand .flvNextTag s) h)

end Exec

theorem flvPayload_script (s : State) :
    flvPayload .script (s.pos.toNat + 15) (tagDataSize s) (tagConsumed s) =
      complete (tagScript s).1
        { tagConsumed s with amf := (tagScript s).2.amf, metaRows := (tagScript s).2.rows } := by
  simp only [flvPayload, flvScriptTag, tagConsumed_ibuf, tagConsumed_amf, tagConsumed_metaRows, tagScript]

theorem shortfallCode_fifteen {s : State} (hinv : s.Inv) :
    (if s.ctrl.eos then .endOfStream else shortfallCode s.latch 15) =
      if s.ctrl.eos then ResultCode.endOfStream else .needMoreData := by
  have hcap : ¬ s.cap.toNat < 15 := by
    have hmin := hinv.cap_min
    simp only [Config.capMin] at hmin
    omega
  cases heos : s.ctrl.eos with
  | true => rfl
  | false => simp only [shortfallCode, State.latch, heos, if_neg hcap]; rfl

/-- Settles O34, in the order of R180: too few bytes, a tag not whole, and the payload by its kind. -/
theorem flvNextTagConsumesWholeTags : Obligations.FlvNextTagConsumesWholeTags := by
  refine ⟨rfl, fun s hinv => ⟨fun hshort => ?_, ?_⟩⟩
  · rw [exec_flvNextTag_short hshort, shortfallCode_fifteen hinv]
    rfl
  rintro h15 t ds tt h rfl rfl hds hh
  obtain rfl : ds = tagDataSize s := hds
  obtain rfl : h = tagHeader s := by rw [hh, tagHeader]; rfl
  refine ⟨fun hpartial => ?_, fun hwhole w c hw hc => ?_⟩
  · rw [exec_flvNextTag_partial h15 hpartial, shortfall, complete, tagStored]
  obtain rfl : w = tagChecked s := hw
  obtain rfl : c = tagConsumed s := hc
  have hkind {kind : TagKind} := exec_flvNextTag_whole (kind := kind) hwhole
  refine ⟨fun htype hds => ?_, fun htype hds => ?_, fun htype hds => ?_, fun htype r hr => ?_,
    fun h8 h9 h18 => ?_⟩
  · rw [hkind (kind := .audio) (congrArg tagKind htype), flvPayload_audio _ hds, complete, tagConsumed_ibuf,
      tagConsumed_status]
    rfl
  · rw [hkind (kind := .video) (congrArg tagKind htype), flvPayload_video _ hds, complete, tagConsumed_ibuf,
      tagConsumed_status]
    rfl
  · have hempty {kind : TagKind} (h : kind = .audio ∨ kind = .video) :
        flvPayload kind (s.pos.toNat + 15) (tagDataSize s) (tagConsumed s) =
          { tagConsumed s with status := s.status.raise .malformedHeader } := by
      rw [flvPayload_empty _ h hds, complete, tagConsumed_status]
    obtain htype | htype := htype
    · rw [hkind (kind := .audio) (congrArg tagKind htype), hempty (.inl rfl)]
    · rw [hkind (kind := .video) (congrArg tagKind htype), hempty (.inr rfl)]
  · obtain rfl : r = tagScript s := hr
    rw [hkind (kind := .script) (congrArg tagKind htype), flvPayload_script, complete, tagConsumed_status]
  · rw [hkind (kind := .unknown) ((if_neg h8).trans ((if_neg h9).trans (if_neg h18))), flvPayload, complete,
      tagConsumed_status]

/-! ## All that FLV_NEXT_TAG can do -/

/-- The payload of another kind than Script decides only its ES fields (43_flv R184, R185). -/
theorem flvPayload_of_ne_script {kind : TagKind} (h : kind ≠ .script) (p ds : Nat) (s : State) :
    ∃ code ∈ [ResultCode.ok, .malformedHeader, .unsupportedTagType], ∃ f : GFlvt,
      f = { s.flvt with audio := f.audio, video := f.video, esOff := f.esOff, esLen := f.esLen } ∧
        flvPayload kind p ds s = complete code { s with flvt := f } := by
  cases kind with
  | script => exact absurd rfl h
  | unknown => exact ⟨.unsupportedTagType, by decide, s.flvt, rfl, rfl⟩
  | audio =>
    by_cases hds : ds = 0
    · exact ⟨.malformedHeader, by decide, s.flvt, rfl, flvPayload_empty s (.inl rfl) hds⟩
    · exact ⟨.ok, by decide, _, rfl, flvPayload_audio s hds⟩
  | video =>
    by_cases hds : ds = 0
    · exact ⟨.malformedHeader, by decide, s.flvt, rfl, flvPayload_empty s (.inr rfl) hds⟩
    · exact ⟨.ok, by decide, _, rfl, flvPayload_video s hds⟩

/-- A whole tag of another kind than Script. -/
def OtherTag (s : State) (code : ResultCode) (f : GFlvt) : Prop :=
  (tagHeader s).kind ≠ .script ∧ code ∈ [ResultCode.ok, .malformedHeader, .unsupportedTagType] ∧
    f = { tagChecked s with audio := f.audio, video := f.video, esOff := f.esOff, esLen := f.esLen }

/-- FLV_NEXT_TAG without a whole tag. -/
def tagNotWhole (code : ResultCode) (g : GFlvt) (s : State) : State :=
  complete code { startCommand .flvNextTag s with flvt := g }

/-- The codes of FLV_NEXT_TAG without a whole tag. -/
def tagNotWholeCodes : List ResultCode := [.endOfStream, .truncated, .capacityExceeded, .needMoreData]

/-- The tag is not whole; or it is, and of another kind than Script; or it is a Script. -/
theorem exec_flvNextTag_cases (s : State) :
    (∃ code ∈ tagNotWholeCodes, ∃ g, (g = GFlvt.zero ∨ g = tagHeader s) ∧
        exec .flvNextTag s = .next (tagNotWhole code g s)) ∨
      15 + tagDataSize s ≤ s.len.toNat - s.pos.toNat ∧
        ((∃ code f, OtherTag s code f ∧
            exec .flvNextTag s = .next (complete code { tagConsumed s with flvt := f })) ∨
          ((tagHeader s).kind = .script ∧
            exec .flvNextTag s =
              .next
                (complete (tagScript s).1
                  { tagConsumed s with amf := (tagScript s).2.amf, metaRows := (tagScript s).2.rows }))) := by
  have hshort : ∀ need, shortfallCode s.latch need ∈ tagNotWholeCodes := fun need =>
    List.mem_cons_of_mem _ (shortfallCode_mem s.latch need)
  by_cases h15 : s.len.toNat - s.pos.toNat < 15
  · refine .inl ⟨_, ?_, GFlvt.zero, .inl rfl, exec_flvNextTag_short h15⟩
    split
    · decide
    · exact hshort 15
  by_cases hpartial : s.len.toNat - s.pos.toNat < 15 + tagDataSize s
  · exact .inl ⟨_, hshort _, tagHeader s, .inr rfl, exec_flvNextTag_partial (not_lt.mp h15) hpartial⟩
  have hwhole : 15 + tagDataSize s ≤ s.len.toNat - s.pos.toNat := not_lt.mp hpartial
  refine .inr ⟨hwhole, ?_⟩
  by_cases hkind : tagKind (Memory.read s.ibuf (s.pos.toNat + 4)) = .script
  · exact .inr ⟨hkind, by rw [exec_flvNextTag_whole hwhole hkind, flvPayload_script]⟩
  · rw [exec_flvNextTag_whole hwhole rfl]
    obtain ⟨code, hcode, f, hf, heq⟩ := flvPayload_of_ne_script hkind (s.pos.toNat + 15) (tagDataSize s) (tagConsumed s)
    exact .inl ⟨code, f, ⟨hkind, hcode, hf⟩, congrArg _ heq⟩

theorem tagDataSize_lt (s : State) : tagDataSize s < 16777216 := flvDataSize_lt ..

theorem word_ofN_toNat_of_lt {n : Nat} (h : n < 4294967296) : (Word.ofN n).toNat = n := Nat.mod_eq_of_lt h

theorem tagConsumed_consumed_toNat (s : State) : (tagConsumed s).consumed.toNat = 15 + tagDataSize s := by
  have hds := tagDataSize_lt s
  rw [tagConsumed, word_ofN_toNat_of_lt (by omega)]

theorem tagConsumed_consumed_ne_zero (s : State) : (tagConsumed s).consumed ≠ 0#32 := fun h => by
  have htoNat := tagConsumed_consumed_toNat s
  rw [h] at htoNat
  simp only [BitVec.toNat_ofNat] at htoNat
  omega

/-- Settles O42: no tag leaves G_AMF cleared, and a Script's outcome is the decoder's. -/
theorem scriptOutcomeIsReported : Obligations.ScriptOutcomeIsReported := by
  intro s t _ hexec
  have hne := tagConsumed_consumed_ne_zero s
  obtain ⟨code, -, g, -, h⟩ | ⟨-, ⟨code, f, ⟨hkind, -, hf⟩, h⟩ | ⟨-, h⟩⟩ := exec_flvNextTag_cases s
  · obtain rfl := exec_unique hexec h
    exact ⟨fun _ => rfl, fun hne => absurd rfl hne⟩
  · obtain rfl := exec_unique hexec h
    have hkept : f.kind = (tagHeader s).kind := by rw [hf, tagChecked]
    simp only [complete_consumed, complete_flvt, hkept]
    exact ⟨fun hzero => absurd hzero hne, fun _ hscript => absurd hscript hkind⟩
  · obtain rfl := exec_unique hexec h
    have hended : AmfEnded (tagScript s) := amfDecode_ended _ _ _ rowsLegal_zero
    simp only [complete_consumed, complete_amf, complete_status, status_raise_code]
    exact ⟨fun hzero => absurd hzero hne, fun _ _ => ⟨hended.decoded, hended.code, hended.partial_iff⟩⟩

/-! ## Consecutive tags (43_flv R189) -/

/-- `t` is `s` after a whole tag was consumed. -/
structure TagReported (s t : State) : Prop where
  whole : s.pos.toNat + 15 + tagDataSize s ≤ s.len.toNat
  pos : t.pos = Word.ofN (s.pos.toNat + 15 + tagDataSize s)
  consumed : t.consumed.toNat = 15 + tagDataSize s
  tagOff : t.flvt.tagOff = Word.ofN (s.pos.toNat + 4)
  dataSize : t.flvt.dataSize.toNat = tagDataSize s
  len : t.len = s.len

theorem dataSize_toNat (s : State) : (BitVec.ofNat 24 (tagDataSize s)).toNat = tagDataSize s := by
  rw [BitVec.toNat_ofNat, Nat.mod_eq_of_lt (tagDataSize_lt s)]

theorem exec_flvNextTag_consumed {s t : State} (hexec : exec .flvNextTag s = .next t)
    (hne : t.consumed ≠ 0#32) : TagReported s t := by
  obtain ⟨code, -, g, -, h⟩ | ⟨hwhole, ⟨code, f, ⟨-, -, hf⟩, h⟩ | ⟨-, h⟩⟩ := exec_flvNextTag_cases s
  · obtain rfl := exec_unique hexec h
    exact absurd rfl hne
  · obtain rfl := exec_unique hexec h
    refine ⟨by omega, ?_, tagConsumed_consumed_toNat s, ?_, ?_, ?_⟩
    · rw [complete_pos, tagConsumed]
    · rw [complete_flvt, hf, tagChecked, tagHeader]
    · simp only [complete_flvt]
      rw [hf, tagChecked, tagHeader, dataSize_toNat]
    · rw [complete_len, tagConsumed]
  · obtain rfl := exec_unique hexec h
    refine ⟨by omega, ?_, tagConsumed_consumed_toNat s, ?_, ?_, ?_⟩
    · rw [complete_pos, tagConsumed]
    · rw [complete_flvt, tagConsumed, tagChecked, tagHeader]
    · simp only [complete_flvt, tagConsumed, tagChecked, tagHeader, dataSize_toNat]
    · rw [complete_len, tagConsumed]

/-- Settles O35: the second tag's header stands 4 after where the first one's tag ended. -/
theorem flvTagOffsetsAdvanceByTheTag : Obligations.FlvTagOffsetsAdvanceByTheTag := by
  intro s t u _ hst hconsumedT htu hconsumedU
  have ht : TagReported (acceptCommand (encode .flvNextTag) s) t := exec_flvNextTag_consumed hst hconsumedT
  have hu : TagReported (acceptCommand (encode .flvNextTag) t) u := exec_flvNextTag_consumed htu hconsumedU
  have hpos : t.pos.toNat = _ := congrArg BitVec.toNat ht.pos |>.trans (word_ofN_toNat_of_le ht.whole)
  have hwhole := ht.whole
  have hwholeU := hu.whole
  simp only [acceptCommand_pos, acceptCommand_len] at hpos hwhole hwholeU
  refine ⟨?_, by rw [ht.consumed, ht.dataSize]⟩
  rw [hu.tagOff, ht.tagOff, ht.dataSize, acceptCommand_pos, acceptCommand_pos,
    word_ofN_toNat_of_le (w := t.len) (by omega), word_ofN_toNat_of_le (w := s.len) (by omega)]
  omega

/-! ## The PreviousTagSize check (43_flv R183) -/

/-- G_FLVT's check fields set. -/
def withCheck (checked mismatch : Bool) (s : State) : State :=
  { s with flvt := { s.flvt with ptsChecked := checked, ptsMismatch := mismatch } }

/-- No payload looks at the check fields. -/
theorem flvPayload_withCheck (kind : TagKind) (p ds : Nat) (a b : Bool) (s : State) :
    flvPayload kind p ds (withCheck a b s) = withCheck a b (flvPayload kind p ds s) := by
  cases kind with
  | audio => simp only [flvPayload, flvAudioTag]; split <;> rfl
  | video => simp only [flvPayload, flvVideoTag]; split <;> rfl
  | script | unknown => rfl

/-- Another previous-tag state changes the check fields alone. -/
theorem tagConsumed_flvPrev (s : State) (p : FlvPrev) :
    tagConsumed { s with flvPrev := p } =
      withCheck p.valid (p.valid && decide (memRead s.ibuf s.pos.toNat 4 ≠ 11 + p.ds.toNat)) (tagConsumed s) := rfl

/-- A payload writes CODE, G_FLVT, G_AMF and G_META alone. -/
theorem flvPayload_frame (kind : TagKind) (p ds : Nat) (s : State) : ∃ code f amf rows,
    flvPayload kind p ds s = complete code { s with flvt := f, amf := amf, metaRows := rows } := by
  by_cases h : kind = .script
  · exact ⟨_, s.flvt, _, _, by rw [h]; rfl⟩
  · obtain ⟨code, -, f, -, heq⟩ := flvPayload_of_ne_script h p ds s
    exact ⟨code, f, s.amf, s.metaRows, heq⟩

/-- Whatever the previous-tag state is: no tag, and it is kept; or a tag, and it is replaced. -/
theorem exec_flvNextTag_flvPrev (s : State) (p : FlvPrev) :
    (∃ t, exec .flvNextTag s = .next t ∧ exec .flvNextTag { s with flvPrev := p } = .next { t with flvPrev := p } ∧
        t.pos = s.pos ∧ t.flvPrev = s.flvPrev) ∨
      ∃ t a b, exec .flvNextTag s = .next t ∧ exec .flvNextTag { s with flvPrev := p } = .next (withCheck a b t) ∧
        t.pos ≠ s.pos ∧ t.flvPrev.valid = true := by
  by_cases h15 : s.len.toNat - s.pos.toNat < 15
  · exact .inl ⟨_, exec_flvNextTag_short h15, exec_flvNextTag_short (s := { s with flvPrev := p }) h15, rfl, rfl⟩
  by_cases hpartial : s.len.toNat - s.pos.toNat < 15 + tagDataSize s
  · exact .inl ⟨_, exec_flvNextTag_partial (not_lt.mp h15) hpartial,
      exec_flvNextTag_partial (s := { s with flvPrev := p }) (not_lt.mp h15) hpartial, rfl, rfl⟩
  have hwhole : 15 + tagDataSize s ≤ s.len.toNat - s.pos.toNat := not_lt.mp hpartial
  obtain ⟨code, f, amf, rows, hframe⟩ := flvPayload_frame (tagKind (Memory.read s.ibuf (s.pos.toNat + 4)))
    (s.pos.toNat + 15) (tagDataSize s) (tagConsumed s)
  refine .inr ⟨_, p.valid, p.valid && decide (memRead s.ibuf s.pos.toNat 4 ≠ 11 + p.ds.toNat),
    exec_flvNextTag_whole hwhole rfl, ?_, ?_, ?_⟩
  · rw [← flvPayload_withCheck, ← tagConsumed_flvPrev]
    exact exec_flvNextTag_whole (s := { s with flvPrev := p }) hwhole rfl
  · rw [hframe, complete_pos, tagConsumed]
    intro heq
    have htoNat := congrArg BitVec.toNat heq
    have hds := tagDataSize_lt s
    rw [BitVec.toNat_ofNat] at htoNat
    omega
  · rw [hframe, complete_flvPrev, tagConsumed]

/-- Settles O36, in the two cases of `exec_flvNextTag_flvPrev`. -/
theorem previousTagSizeCheckIsInformational : Obligations.PreviousTagSizeCheckIsInformational := by
  intro s t t' p ht ht'
  obtain ⟨r, h, h', hpos, hprev⟩ | ⟨r, a, b, h, h', hpos, hvalid⟩ := exec_flvNextTag_flvPrev s p
  · obtain rfl := exec_unique h ht
    obtain rfl := exec_unique h' ht'
    exact ⟨rfl, fun hne => absurd hpos hne, fun _ => ⟨hprev, rfl⟩⟩
  · obtain rfl := exec_unique h ht
    obtain rfl := exec_unique h' ht'
    exact ⟨rfl, fun _ => ⟨rfl, hvalid⟩, fun heq => absurd heq hpos⟩

end Sys2Proof.Machine
end

section
/-! Proofs about what every command shares (O48, and the ground for O46, O47, O49, O50, O51): its start, its frame, its codes and how it
moves the cursor. -/

namespace Sys2Proof.Machine

/-- Settles O48: the groups of R112, command by command. -/
theorem startClearsExactlyItsGroups : Obligations.StartClearsExactlyItsGroups := by
  refine fun s => ⟨rfl, rfl, rfl, rfl, rfl, rfl, rfl, fun i hi => ?_⟩
  simp only [List.mem_cons, List.not_mem_nil, or_false] at hi
  obtain rfl | rfl | rfl := hi <;> rfl

/-! ## All that the other commands can do -/

/-- The codes of a shortfall (40_cursor R111). -/
def shortfallCodes : List ResultCode := [.truncated, .capacityExceeded, .needMoreData]

/-- FLV_HEADER consumes the header to data_offset, or ends without consuming. -/
theorem exec_flvHeader_cases (s : State) :
    (∃ d g, d ≤ s.len.toNat - s.pos.toNat ∧
        exec .flvHeader s =
          .next
            (complete .ok
              { startCommand .flvHeader s with
                pos := Word.ofN (s.pos.toNat + d), consumed := Word.ofN d, flvh := g, flvPrev := .zero })) ∨
      ∃ code ∈ .malformedHeader :: shortfallCodes, ∃ g prev,
        exec .flvHeader s =
          .next (complete code { startCommand .flvHeader s with flvh := g, flvPrev := prev }) := by
  by_cases h9 : 9 ≤ s.latch.avail
  swap
  · exact .inr ⟨_, List.mem_cons_of_mem _ (shortfallCode_mem s.latch 9), .zero, s.flvPrev,
      congrArg _ (flvHeaderBody_short s.latch (startCommand .flvHeader s) (not_le.mp h9))⟩
  by_cases hsig : bytesAt s.ibuf s.pos.toNat 3 = [0x46#8, 0x4C#8, 0x56#8]
  swap
  · exact .inr ⟨.malformedHeader, by decide, .zero, s.flvPrev,
      congrArg _ (flvHeaderBody_badSignature s.latch (startCommand .flvHeader s) h9 hsig)⟩
  by_cases hend : memRead s.ibuf (s.pos.toNat + 5) 4 ≤ s.latch.avail
  · exact .inl ⟨_, _, hend, congrArg _ (flvHeaderBody_whole s.latch (startCommand .flvHeader s) h9 hsig hend)⟩
  · exact .inr ⟨_, List.mem_cons_of_mem _ (shortfallCode_mem s.latch _), _, .zero,
      congrArg _ (flvHeaderBody_partial s.latch (startCommand .flvHeader s) h9 hsig (not_le.mp hend))⟩

/-- The iterator RTP_PARSE leaves: cancelled, or armed over the payload (44_rtp R214). -/
def ParsedIter (s : State) (it : TsIter) : Prop :=
  it = .zero ∨ 12 ≤ s.arg.toNat ∧
    it = ⟨true, 0#16, Word.ofN (s.pos.toNat + 12), Word.ofN (s.pos.toNat + s.arg.toNat)⟩

/-- RTP_PARSE consumes the datagram, decoded or too short, or ends without consuming. -/
theorem exec_rtpParse_cases (s : State) :
    (s.arg.toNat ≤ s.len.toNat - s.pos.toNat ∧ ∃ code g it,
        (code = .truncated ∧ s.arg.toNat < 12 ∨ code = .ok) ∧ ParsedIter s it ∧
        exec .rtpParse s =
          .next
            (complete code
              { startCommand .rtpParse s with
                pos := Word.ofN (s.pos.toNat + s.arg.toNat), consumed := Word.ofN s.arg.toNat, rtp := g
                tsIter := it })) ∨
      s.len.toNat - s.pos.toNat < s.arg.toNat ∧ ∃ code ∈ shortfallCodes,
        exec .rtpParse s = .next (complete code (cancelIterator (startCommand .rtpParse s))) := by
  by_cases hwhole : s.arg.toNat ≤ s.latch.avail
  swap
  · exact .inr ⟨not_le.mp hwhole, _, shortfallCode_mem s.latch _,
      congrArg _ (rtpParseBody_partial s.latch (startCommand .rtpParse s) (not_le.mp hwhole))⟩
  refine .inl ⟨hwhole, ?_⟩
  by_cases h12 : 12 ≤ s.arg.toNat
  swap
  · exact ⟨.truncated, .zero, .zero, .inl ⟨rfl, not_le.mp h12⟩, .inl rfl,
      congrArg _ (rtpParseBody_tooShort s.latch (startCommand .rtpParse s) hwhole (not_le.mp h12))⟩
  by_cases hpt : (Memory.read s.ibuf (s.pos.toNat + 1)).toNat % 128 = 33
  · exact ⟨.ok, _, _, .inr rfl, .inr ⟨h12, rfl⟩,
      congrArg _ (rtpParseBody_strides s.latch (startCommand .rtpParse s) hwhole h12 hpt)⟩
  · exact ⟨.ok, _, .zero, .inr rfl, .inl rfl,
      congrArg _ (rtpParseBody_noStrides s.latch (startCommand .rtpParse s) hwhole h12 hpt)⟩

/-- The iterator TS_NEXT leaves: an idle one as it was, cancelled, or a stride further (44_rtp R220). -/
def SteppedIter (s : State) (it : TsIter) : Prop :=
  it = s.tsIter ∨ it = .zero ∨
    s.tsIter.active = true ∧ s.tsIter.nextOff.toNat + 188 ≤ s.tsIter.endOff.toNat ∧ ∃ index,
      it = ⟨true, index, Word.ofN (s.tsIter.nextOff.toNat + 188), s.tsIter.endOff⟩

/-- TS_NEXT writes G_TS and the iterator. -/
theorem exec_tsNext_cases (s : State) :
    ∃ code ∈ raisable .tsNext, ∃ g it, (g.payLen = 0#32 ∨ g.payLen = 184#32) ∧ SteppedIter s it ∧
      exec .tsNext s = .next (complete code { startCommand .tsNext s with ts := g, tsIter := it }) := by
  cases hactive : s.tsIter.active with
  | false =>
    exact ⟨.endOfStream, by decide, .zero, s.tsIter, .inl rfl, .inl rfl,
      congrArg _ (tsNextBody_idle (s := startCommand .tsNext s) hactive)⟩
  | true =>
    by_cases hroom : 188 ≤ s.tsIter.endOff.toNat - s.tsIter.nextOff.toNat
    swap
    · exact ⟨.endOfStream, by decide, .zero, .zero, .inl rfl, .inr (.inl rfl),
        exec_tsNext_exhausted hactive (not_le.mp hroom)⟩
    by_cases hsync : Memory.read s.ibuf s.tsIter.nextOff.toNat = 0x47#8
    · have hend : s.tsIter.nextOff.toNat + 188 ≤ s.tsIter.endOff.toNat := by omega
      refine ⟨.ok, by decide, _, _, ?_, ?_, (exec_tsNext_packet hactive hend hsync).trans
        (congrArg _ (tsReport_of_active (s := storeStride (startCommand .tsNext s)) _ hactive))⟩
      · exact .inr rfl
      · exact .inr (.inr ⟨hactive, hend, _, rfl⟩)
    · exact ⟨.malformedHeader, by decide, _, .zero, .inl rfl, .inr (.inl rfl),
        congrArg _ (tsNextBody_noSync (s := startCommand .tsNext s) hactive hroom hsync)⟩

/-! ## The frame, command by command (40_cursor R112) -/

section Frames
variable {s t : State}

theorem exec_nalNext_frame (h : exec .nalNext s = .next t) :
    t =
      { s with
        status := s.status.raise t.status.code, pos := t.pos, consumed := t.consumed, skipped := t.skipped
        nal := t.nal } := by
  obtain ⟨i, c, e, -, -, hexec⟩ | ⟨code, -, hexec⟩ := exec_nalNext_cases s
  · obtain rfl := exec_unique h hexec
    rw [nalReport_eq]
    rfl
  · obtain rfl := exec_unique h hexec
    rfl

theorem exec_adtsNext_frame (h : exec .adtsNext s = .next t) :
    t =
      { s with
        status := s.status.raise t.status.code, pos := t.pos, consumed := t.consumed, skipped := t.skipped
        adts := t.adts } := by
  obtain ⟨i, -, -, -, hexec⟩ | ⟨code, -, so, g, -, hexec⟩ := exec_adtsNext_cases s
  · obtain rfl := exec_unique h hexec
    rfl
  · obtain rfl := exec_unique h hexec
    rfl

theorem exec_flvHeader_frame (h : exec .flvHeader s = .next t) :
    t =
      { s with
        status := s.status.raise t.status.code, pos := t.pos, consumed := t.consumed, skipped := t.skipped
        flvh := t.flvh, flvPrev := t.flvPrev } := by
  obtain ⟨d, g, -, hexec⟩ | ⟨code, -, g, prev, hexec⟩ := exec_flvHeader_cases s
  · obtain rfl := exec_unique h hexec
    rfl
  · obtain rfl := exec_unique h hexec
    rfl

theorem exec_flvNextTag_frame (h : exec .flvNextTag s = .next t) :
    t =
      { s with
        status := s.status.raise t.status.code, pos := t.pos, consumed := t.consumed, skipped := t.skipped
        flvt := t.flvt, amf := t.amf, metaRows := t.metaRows, flvPrev := t.flvPrev } := by
  obtain ⟨code, -, g, -, hexec⟩ | ⟨-, ⟨code, f, -, hexec⟩ | ⟨-, hexec⟩⟩ := exec_flvNextTag_cases s
  · obtain rfl := exec_unique h hexec
    rfl
  · rw [tagConsumed] at hexec
    obtain rfl := exec_unique h hexec
    rfl
  · rw [tagConsumed] at hexec
    obtain rfl := exec_unique h hexec
    rfl

theorem exec_rtpParse_frame (h : exec .rtpParse s = .next t) :
    t =
      { s with
        status := s.status.raise t.status.code, pos := t.pos, consumed := t.consumed, skipped := t.skipped
        rtp := t.rtp, ts := t.ts, tsIter := t.tsIter } := by
  obtain ⟨-, code, g, it, -, -, hexec⟩ | ⟨-, code, -, hexec⟩ := exec_rtpParse_cases s
  · obtain rfl := exec_unique h hexec
    rfl
  · obtain rfl := exec_unique h hexec
    rfl

theorem exec_tsNext_frame (h : exec .tsNext s = .next t) :
    t =
      { s with
        status := s.status.raise t.status.code, consumed := t.consumed, skipped := t.skipped, ts := t.ts
        tsIter := t.tsIter } := by
  obtain ⟨code, -, g, it, -, -, hexec⟩ := exec_tsNext_cases s
  obtain rfl := exec_unique h hexec
  rfl

theorem exec_seek_frame (h : exec .seek s = .next t) :
    t =
      { s with
        status := s.status.raise t.status.code, pos := t.pos, consumed := t.consumed, skipped := t.skipped } := by
  obtain hle | hlt := le_or_gt s.arg.toNat s.len.toNat
  · obtain rfl := exec_unique h (exec_seek_of_le hle)
    rfl
  · obtain rfl := exec_unique h (exec_seek_of_lt hlt)
    rfl

theorem exec_advance_frame (h : exec .advance s = .next t) :
    t =
      { s with
        status := s.status.raise t.status.code, pos := t.pos, consumed := t.consumed, skipped := t.skipped } := by
  obtain hle | hlt := le_or_gt s.arg.toNat (s.len.toNat - s.pos.toNat)
  · obtain rfl := exec_unique h (exec_advance_of_le hle)
    rfl
  · obtain rfl := exec_unique h (exec_advance_of_lt hlt)
    rfl

theorem exec_compact_frame (h : exec .compact s = .next t) :
    t =
      { s with
        status := s.status.raise t.status.code, pos := t.pos, consumed := t.consumed, skipped := t.skipped
        tsIter := t.tsIter, ibuf := t.ibuf, len := t.len } := by
  cases h
  rfl

end Frames

end Sys2Proof.Machine
end

section
/-! Proofs of the statements over all commands (O49, O50, O51, and the ground for O46 and O47). -/

namespace Sys2Proof.Machine

/-! ## The frame of every command but SOFT_RESET -/

/-- What the command `i`, run from `s` to `t`, leaves unchanged (40_cursor R112, 20_memory R67). -/
structure CommandFrame (i : Instr) (s t : State) : Prop where
  status : t.status = s.status.raise t.status.code
  ctrl : t.ctrl = s.ctrl
  arg : t.arg = s.arg
  cap : t.cap = s.cap
  inputs : t.inputs = s.inputs
  response : t.response = s.response
  freeCount : t.freeCount = s.freeCount
  nal : i ≠ .nalNext → t.nal = s.nal
  adts : i ≠ .adtsNext → t.adts = s.adts
  flvh : i ≠ .flvHeader → t.flvh = s.flvh
  flvt : i ≠ .flvNextTag → t.flvt = s.flvt
  amf : i ≠ .flvNextTag → t.amf = s.amf
  metaRows : i ≠ .flvNextTag → t.metaRows = s.metaRows
  rtp : i ≠ .rtpParse → t.rtp = s.rtp
  ts : i ≠ .rtpParse → i ≠ .tsNext → t.ts = s.ts
  flvPrev : i ≠ .flvHeader → i ≠ .flvNextTag → t.flvPrev = s.flvPrev
  tsIter : i ≠ .rtpParse → i ≠ .tsNext → i ≠ .compact → t.tsIter = s.tsIter
  pos : i = .tsNext → t.pos = s.pos
  len : i ≠ .compact → t.len = s.len
  ibuf : i ≠ .compact → t.ibuf = s.ibuf

theorem exec_frame {i : Instr} {s t : State} (h : exec i s = .next t) (hi : i ≠ .softReset) :
    CommandFrame i s t := by
  cases i with
  | nalNext => rw [exec_nalNext_frame h]; constructor <;> simp
  | adtsNext => rw [exec_adtsNext_frame h]; constructor <;> simp
  | flvHeader => rw [exec_flvHeader_frame h]; constructor <;> simp
  | flvNextTag => rw [exec_flvNextTag_frame h]; constructor <;> simp
  | rtpParse => rw [exec_rtpParse_frame h]; constructor <;> simp
  | tsNext => rw [exec_tsNext_frame h]; constructor <;> simp
  | seek => rw [exec_seek_frame h]; constructor <;> simp
  | advance => rw [exec_advance_frame h]; constructor <;> simp
  | compact => rw [exec_compact_frame h]; constructor <;> simp
  | softReset => exact absurd rfl hi

theorem CommandFrame.lastOp {i : Instr} {s t : State} (h : CommandFrame i s t) :
    t.status.lastOp = s.status.lastOp := by rw [h.status]; rfl

theorem CommandFrame.overflow {i : Instr} {s t : State} (h : CommandFrame i s t) :
    t.status.overflow = s.status.overflow := by rw [h.status]; rfl

theorem CommandFrame.busyWrite {i : Instr} {s t : State} (h : CommandFrame i s t) :
    t.status.busyWrite = s.status.busyWrite := by rw [h.status]; rfl

/-- Settles O49, from `exec_frame`. -/
theorem commandsKeepWhatTheyDoNotOwn : Obligations.CommandsKeepWhatTheyDoNotOwn := by
  intro i s t h hi
  have f := exec_frame h hi
  exact ⟨f.ctrl, f.arg, f.cap, f.overflow, f.busyWrite, f.lastOp, f.inputs, f.response, f.freeCount, f.nal, f.adts,
    f.flvh, fun hi => ⟨f.flvt hi, f.amf hi, f.metaRows hi⟩, f.rtp, f.ts, f.flvPrev, f.tsIter, f.pos,
    fun hi => ⟨f.len hi, fun k => congrArg (Memory.read · k) (f.ibuf hi)⟩⟩

/-! ## Every command completes (60_exceptions R231) -/

theorem exec_next (i : Instr) (s : State) : ∃ t, exec i s = .next t := by
  cases i <;> exact ⟨_, rfl⟩

theorem exec_completed {i : Instr} {s t : State} (h : exec i s = .next t) :
    t.status.busy = false ∧ t.status.done = true := by
  by_cases hi : i = .softReset
  · subst hi
    cases h
    exact ⟨rfl, rfl⟩
  · have hstatus := (exec_frame h hi).status
    exact ⟨congrArg Status.busy hstatus, congrArg Status.done hstatus⟩

/-! ## The codes of each command (60_exceptions R230) -/

/-- Settles O50, command by command from the cases of each. -/
theorem commandsEndInTheirOwnCodes : Obligations.CommandsEndInTheirOwnCodes := by
  intro i s t h
  cases i with
  | nalNext =>
    obtain ⟨i, c, e, -, -, hexec⟩ | ⟨code, hcode, hexec⟩ := exec_nalNext_cases s
    · obtain rfl := exec_unique h hexec
      exact List.mem_cons_self
    · obtain rfl := exec_unique h hexec
      have hsub : [ResultCode.endOfStream, .noStartCode, .needMoreData, .capacityExceeded] ⊆ raisable .nalNext := by
        decide
      exact hsub hcode
  | adtsNext =>
    obtain ⟨i, -, -, -, hexec⟩ | ⟨code, hcode, so, g, -, hexec⟩ := exec_adtsNext_cases s
    · obtain rfl := exec_unique h hexec
      exact List.mem_cons_self
    · obtain rfl := exec_unique h hexec
      have hsub : adtsNoFrameCodes ⊆ raisable .adtsNext := by decide
      exact hsub hcode
  | flvHeader =>
    obtain ⟨d, g, -, hexec⟩ | ⟨code, hcode, g, prev, hexec⟩ := exec_flvHeader_cases s
    · obtain rfl := exec_unique h hexec
      exact List.mem_cons_self
    · obtain rfl := exec_unique h hexec
      have hsub : .malformedHeader :: shortfallCodes ⊆ raisable .flvHeader := by decide
      exact hsub hcode
  | flvNextTag =>
    obtain ⟨code, hcode, g, -, hexec⟩ | ⟨-, ⟨code, f, ⟨-, hcode, -⟩, hexec⟩ | ⟨-, hexec⟩⟩ := exec_flvNextTag_cases s
    · obtain rfl := exec_unique h hexec
      have hsub : tagNotWholeCodes ⊆ raisable .flvNextTag := by decide
      exact hsub hcode
    · obtain rfl := exec_unique h hexec
      have hsub : [ResultCode.ok, .malformedHeader, .unsupportedTagType] ⊆ raisable .flvNextTag := by decide
      exact hsub hcode
    · obtain rfl := exec_unique h hexec
      have hended : AmfEnded (tagScript s) := amfDecode_ended _ _ _ rowsLegal_zero
      rw [complete_status, status_raise_code]
      obtain hcode | hcode | hcode := hended.code <;> rw [hcode] <;> decide
  | rtpParse =>
    obtain ⟨-, code, g, it, hcode, -, hexec⟩ | ⟨-, code, hcode, hexec⟩ := exec_rtpParse_cases s
    · obtain rfl := exec_unique h hexec
      rw [complete_status, status_raise_code]
      obtain ⟨rfl, -⟩ | rfl := hcode <;> decide
    · obtain rfl := exec_unique h hexec
      have hsub : shortfallCodes ⊆ raisable .rtpParse := by decide
      exact hsub hcode
  | tsNext =>
    obtain ⟨code, hcode, g, it, -, -, hexec⟩ := exec_tsNext_cases s
    obtain rfl := exec_unique h hexec
    exact hcode
  | seek =>
    obtain hle | hlt := le_or_gt s.arg.toNat s.len.toNat
    · obtain rfl := exec_unique h (exec_seek_of_le hle)
      exact List.mem_cons_self
    · obtain rfl := exec_unique h (exec_seek_of_lt hlt)
      exact List.mem_cons_of_mem _ List.mem_cons_self
  | advance =>
    obtain hle | hlt := le_or_gt s.arg.toNat (s.len.toNat - s.pos.toNat)
    · obtain rfl := exec_unique h (exec_advance_of_le hle)
      exact List.mem_cons_self
    · obtain rfl := exec_unique h (exec_advance_of_lt hlt)
      exact List.mem_cons_of_mem _ List.mem_cons_self
  | compact | softReset =>
    cases h
    exact List.mem_cons_self

/-! ## The cursor (60_exceptions R234, 40_cursor R113) -/

/-- The command `i` left the cursor where it was, with CONSUMED = 0; or it moved over `n` bytes that were there, and
its code is one that consumes. -/
def CursorMoved (i : Instr) (s t : State) : Prop :=
  t.pos = s.pos ∧ t.consumed = 0#32 ∨
    consumes i t.status.code = true ∧ ∃ n, n ≤ s.len.toNat - s.pos.toNat ∧
      t.pos = Word.ofN (s.pos.toNat + n) ∧ t.consumed = Word.ofN n

theorem exec_cursor {i : Instr} {s t : State} (h : exec i s = .next t) (hseek : i ≠ .seek)
    (hcompact : i ≠ .compact) (hreset : i ≠ .softReset) : CursorMoved i s t := by
  cases i with
  | nalNext =>
    obtain ⟨i, c, e, hfirst, hend, hexec⟩ | ⟨code, -, hexec⟩ := exec_nalNext_cases s
    · obtain rfl := exec_unique h hexec
      obtain ⟨hqe, hbound⟩ := hend.bounds hfirst
      have hpos : s.pos.toNat ≤ i := hfirst.1
      have hsum : s.pos.toNat + (e - s.pos.toNat) = e := by omega
      exact .inr ⟨rfl, e - s.pos.toNat, by omega, by rw [hsum]; rfl, rfl⟩
    · obtain rfl := exec_unique h hexec
      exact .inl ⟨rfl, rfl⟩
  | adtsNext =>
    obtain ⟨i, hfirst, -, hend, hexec⟩ | ⟨code, -, so, g, -, hexec⟩ := exec_adtsNext_cases s
    · obtain rfl := exec_unique h hexec
      have hpos : s.pos.toNat ≤ i := hfirst.1
      have hsum : s.pos.toNat + (i + frameLengthAt s.ibuf i - s.pos.toNat) = i + frameLengthAt s.ibuf i := by omega
      exact .inr ⟨rfl, i + frameLengthAt s.ibuf i - s.pos.toNat, by omega, by rw [hsum]; rfl, rfl⟩
    · obtain rfl := exec_unique h hexec
      exact .inl ⟨rfl, rfl⟩
  | flvHeader =>
    obtain ⟨d, g, hend, hexec⟩ | ⟨code, -, g, prev, hexec⟩ := exec_flvHeader_cases s
    · obtain rfl := exec_unique h hexec
      exact .inr ⟨rfl, d, hend, rfl, rfl⟩
    · obtain rfl := exec_unique h hexec
      exact .inl ⟨rfl, rfl⟩
  | flvNextTag =>
    have hpos : (tagConsumed s).pos = Word.ofN (s.pos.toNat + (15 + tagDataSize s)) := by
      rw [tagConsumed, Nat.add_assoc]
    have hconsumed : (tagConsumed s).consumed = Word.ofN (15 + tagDataSize s) := by rw [tagConsumed]
    obtain ⟨code, -, g, -, hexec⟩ | ⟨hwhole, ⟨code, f, ⟨-, hcode, -⟩, hexec⟩ | ⟨-, hexec⟩⟩ :=
      exec_flvNextTag_cases s
    · obtain rfl := exec_unique h hexec
      exact .inl ⟨rfl, rfl⟩
    · obtain rfl := exec_unique h hexec
      have hcodes : ∀ c ∈ [ResultCode.ok, .malformedHeader, .unsupportedTagType], consumes .flvNextTag c = true := by
        decide
      exact .inr ⟨hcodes code hcode, _, hwhole, hpos, hconsumed⟩
    · obtain rfl := exec_unique h hexec
      have hended : AmfEnded (tagScript s) := amfDecode_ended _ _ _ rowsLegal_zero
      refine .inr ⟨?_, _, hwhole, hpos, hconsumed⟩
      rw [complete_status, status_raise_code]
      obtain hcode | hcode | hcode := hended.code <;> rw [hcode] <;> rfl
  | rtpParse =>
    obtain ⟨hend, code, g, it, hcode, -, hexec⟩ | ⟨-, code, -, hexec⟩ := exec_rtpParse_cases s
    · obtain rfl := exec_unique h hexec
      refine .inr ⟨?_, s.arg.toNat, hend, rfl, rfl⟩
      obtain ⟨rfl, -⟩ | rfl := hcode <;> rfl
    · obtain rfl := exec_unique h hexec
      exact .inl ⟨rfl, rfl⟩
  | tsNext =>
    obtain ⟨code, -, g, it, -, -, hexec⟩ := exec_tsNext_cases s
    obtain rfl := exec_unique h hexec
    exact .inl ⟨rfl, rfl⟩
  | advance =>
    obtain hle | hlt := le_or_gt s.arg.toNat (s.len.toNat - s.pos.toNat)
    · obtain rfl := exec_unique h (exec_advance_of_le hle)
      exact .inr ⟨rfl, s.arg.toNat, hle, (word_ofN_toNat_add ..).symm, (word_ofN_toNat _).symm⟩
    · obtain rfl := exec_unique h (exec_advance_of_lt hlt)
      exact .inl ⟨rfl, rfl⟩
  | seek => exact absurd rfl hseek
  | compact => exact absurd rfl hcompact
  | softReset => exact absurd rfl hreset

theorem exec_consumed_eq_zero {i : Instr} {s t : State} (h : exec i s = .next t)
    (hi : i = .seek ∨ i = .compact ∨ i = .softReset) : t.consumed = 0#32 := by
  obtain rfl | rfl | rfl := hi
  · obtain hle | hlt := le_or_gt s.arg.toNat s.len.toNat
    · obtain rfl := exec_unique h (exec_seek_of_le hle)
      rfl
    · obtain rfl := exec_unique h (exec_seek_of_lt hlt)
      rfl
  · cases h
    rfl
  · cases h
    rfl

/-- The cursor after a command from a state whose POS is at or below LEN: the numbers of `CursorMoved` fit. -/
theorem CursorMoved.toNat {i : Instr} {s t : State} (h : CursorMoved i s t) (hle : s.pos.toNat ≤ s.len.toNat) :
    t.pos.toNat = s.pos.toNat + t.consumed.toNat ∧ t.pos.toNat ≤ s.len.toNat := by
  obtain ⟨hpos, hconsumed⟩ | ⟨-, n, hn, hpos, hconsumed⟩ := h
  · rw [hpos, hconsumed]
    exact ⟨rfl, hle⟩
  · rw [hpos, hconsumed, word_ofN_toNat_of_le (w := s.len) (by omega), word_ofN_toNat_of_le (w := s.len) (by omega)]
    omega

/-- Settles O51, from `exec_cursor`. -/
theorem posMovesByConsumed : Obligations.PosMovesByConsumed := by
  refine fun i s t hinv h => ⟨fun hseek hcompact hreset => ?_, exec_consumed_eq_zero h⟩
  have hmoved := exec_cursor h hseek hcompact hreset
  obtain ⟨hsum, hbound⟩ := hmoved.toNat hinv.pos_le_len
  refine ⟨hsum, (exec_frame h hreset).len hcompact ▸ hbound, fun hcode => ?_⟩
  obtain hkept | ⟨hconsumes, -⟩ := hmoved
  · exact hkept
  · rw [hcode] at hconsumes
    cases hconsumes

/-! ## Short input (40_cursor R111) -/

theorem exec_rtpParse_truncated {s t : State} (h : exec .rtpParse s = .next t) (hcode : t.status.code = .truncated)
    (hnot : ¬ (s.arg.toNat < 12 ∧ s.arg.toNat ≤ s.len.toNat - s.pos.toNat)) :
    t.pos = s.pos ∧ t.consumed = 0#32 := by
  obtain ⟨hwhole, code, g, it, hcodes, -, hexec⟩ | ⟨-, code, -, hexec⟩ := exec_rtpParse_cases s
  · obtain rfl := exec_unique h hexec
    obtain ⟨-, h12⟩ | rfl := hcodes
    · exact absurd ⟨h12, hwhole⟩ hnot
    · cases hcode
  · obtain rfl := exec_unique h hexec
    exact ⟨rfl, rfl⟩

/-- A command ends in a shortfall code only for want of input, but for RTP_PARSE's TRUNCATED. -/
theorem not_consumes_of_short {i : Instr} {c : ResultCode}
    (h : c = .needMoreData ∨ c = .capacityExceeded ∨ c = .truncated ∧ i ≠ .rtpParse) : consumes i c = false := by
  obtain rfl | rfl | ⟨rfl, hi⟩ := h
  · cases i <;> rfl
  · cases i <;> rfl
  · cases i with
    | rtpParse => exact absurd rfl hi
    | _ => rfl

theorem raisable_of_cursor_commands {i : Instr} (hi : i = .seek ∨ i = .compact ∨ i = .softReset) :
    ∀ c ∈ raisable i, c = .ok ∨ c = .cmdError := by
  obtain rfl | rfl | rfl := hi <;> decide

/-- A command that ends for want of input consumes nothing. -/
theorem exec_short_consumes_nothing {i : Instr} {s t : State} (h : exec i s = .next t)
    (hcode : t.status.code = .needMoreData ∨ t.status.code = .capacityExceeded ∨
      t.status.code = .truncated ∧
        ¬ (i = .rtpParse ∧ s.arg.toNat < 12 ∧ s.arg.toNat ≤ s.len.toNat - s.pos.toNat)) :
    t.pos = s.pos ∧ t.consumed = 0#32 ∧ t.ibuf = s.ibuf ∧ t.len = s.len := by
  have hcursor : ¬ (i = .seek ∨ i = .compact ∨ i = .softReset) := fun hi => by
    have hcodes := raisable_of_cursor_commands hi _ (commandsEndInTheirOwnCodes i s t h)
    rcases hcode with hcode | hcode | ⟨hcode, -⟩ <;> rw [hcode] at hcodes <;> revert hcodes <;> decide
  obtain ⟨hseek, hcompact, hreset⟩ : i ≠ .seek ∧ i ≠ .compact ∧ i ≠ .softReset := by
    simpa only [not_or] using hcursor
  have hframe := exec_frame h hreset
  have hkept : t.pos = s.pos ∧ t.consumed = 0#32 := by
    by_cases hrtp : i = .rtpParse ∧ t.status.code = .truncated
    · obtain ⟨rfl, htrunc⟩ := hrtp
      obtain hcode | hcode | ⟨-, hnot⟩ := hcode
      · rw [htrunc] at hcode; cases hcode
      · rw [htrunc] at hcode; cases hcode
      · exact exec_rtpParse_truncated h htrunc fun hshort => hnot ⟨rfl, hshort⟩
    · obtain hkept | ⟨hconsumes, -⟩ := exec_cursor h hseek hcompact hreset
      · exact hkept
      · rw [not_consumes_of_short (hcode.imp_right (Or.imp_right fun ⟨htrunc, _⟩ =>
          ⟨htrunc, fun hi => hrtp ⟨hi, htrunc⟩⟩))] at hconsumes
        cases hconsumes
  exact ⟨hkept.1, hkept.2, hframe.ibuf hcompact, hframe.len hcompact⟩

end Sys2Proof.Machine
end

section
/-! Proofs of the statements over every step (O16, O17), from the cases of a step. -/

namespace Sys2Proof.Machine

/-! ## All that a step can do, to the block (00_scope R5) -/

/-- The effects of a step that answers `t`. -/
inductive StepEffect (s t : State) : Prop where
  /-- a command in progress runs -/
  | command (i : Instr) (rest : List Input) (hsub : rest ⊆ s.inputs) (hturn : EngineTurnNext s) (hrun : Running s i)
      (hexec : exec i { s with inputs := rest } = .next t)
  /-- a reserved opcode in progress completes -/
  | reserved (rest : List Input) (hsub : rest ⊆ s.inputs) (hturn : EngineTurnNext s) (hbusy : s.status.busy = true)
      (heq : t = completeReserved { s with inputs := rest })
  /-- nothing of the block changes -/
  | quiet (rest : List Input) (r : Response) (n : Nat) (hsub : rest ⊆ s.inputs)
      (heq : t = { s with inputs := rest, response := r, freeCount := n })
  /-- a STATUS write -/
  | statusWrite (v : Word) (rest : List Input) (hin : s.inputs = .access (.write .word 0x008#32 v) :: rest)
      (heq : t = { s with inputs := rest, response := .writeOk, status := s.status.writeOneToClear v })
  /-- a write refused while BUSY -/
  | refusedWrite (off v : Word) (rest : List Input) (hin : s.inputs = .access (.write .word off v) :: rest)
      (hbusy : s.status.busy = true)
      (heq : t = { s with inputs := rest, response := .writeOk, status := { s.status with busyWrite := true } })
  /-- a write to a writable register while idle -/
  | write (r : Reg) (v : Word) (rest : List Input)
      (hin : s.inputs = .access (.write .word (Word.ofN r.offset) v) :: rest) (hidle : s.status.busy = false)
      (heq : t = respond .writeOk (writeReg r v { s with inputs := rest }))
  /-- the reset input -/
  | reset (rest : List Input) (hin : s.inputs = .resetPin :: rest) (heq : t = resetBlock { s with inputs := rest })

theorem engineTurn_effect {s t : State} {rest : List Input} (hsub : rest ⊆ s.inputs) (hturn : EngineTurnNext s)
    (h : engineTurn { s with inputs := rest } = .next t) : StepEffect s t := by
  cases hbusy : s.status.busy with
  | false =>
    rw [engineTurn_of_idle (s := { s with inputs := rest }) hbusy] at h
    exact .quiet rest s.response s.freeCount hsub (Host.Outcome.next.inj h).symm
  | true =>
    rw [engineTurn_of_busy (s := { s with inputs := rest }) hbusy] at h
    cases hdec : decode (s.status.lastOp.setWidth 32) with
    | ok i =>
      rw [runCommandWord_of_decode _ hdec] at h
      exact .command i rest hsub hturn ⟨hbusy, hdec⟩ h
    | error e =>
      simp only [runCommandWord, hdec] at h
      exact .reserved rest hsub hturn hbusy (Host.Outcome.next.inj h).symm

theorem hostPoll_eq (rest : List Input) (s : State) (hidle : s.status.busy = false) :
    hostPoll rest s =
      { s with
        inputs := if s.status.done then rest else s.inputs
        response := .readData s.status.toWord } := by
  simp only [hostPoll, hostReadReg_of_idle .status hidle, respond_status]
  split <;> rfl

theorem hostWriteReg_effect {s t : State} {r : Reg} {off v : Word} {rest : List Input}
    (hin : s.inputs = .access (.write .word off v) :: rest) (hoff : r.offset = off.toNat)
    (h : t = respond .writeOk (hostWriteReg r v { s with inputs := rest })) : StepEffect s t := by
  have hword : off = Word.ofN r.offset := by rw [hoff, word_ofN_toNat]
  obtain ⟨rfl, he⟩ | ⟨-, -, hbusy, he⟩ | ⟨-, -, hidle, he⟩ | ⟨-, -, he⟩ :=
    hostWriteReg_cases r v { s with inputs := rest }
  · obtain rfl : off = 0x008#32 := hword
    exact .statusWrite v rest hin (by rw [h, he]; rfl)
  · exact .refusedWrite off v rest hin hbusy (by rw [h, he]; rfl)
  · exact .write r v rest (hword ▸ hin) hidle (by rw [h, he])
  · exact .quiet rest .writeOk s.freeCount (hin ▸ List.subset_cons_self _ _) (by rw [h, he]; rfl)

theorem step_effect {s t : State} (h : step s = .next t) : StepEffect s t := by
  obtain ⟨hturn, he⟩ | ⟨a, rest, hin, ha⟩ | ⟨rest, hin, hidle, rfl⟩ | ⟨rest, hin, rfl⟩ := step_next_cases h
  · split at he
    · exact engineTurn_effect (List.tail_subset _) hturn he
    · exact engineTurn_effect (List.Subset.refl _) hturn he
  · obtain ⟨off, v, n, -, rfl⟩ | ⟨off, r, v, rfl, hoff, ht⟩ := hostAccess_next_cases ha
    · exact .quiet rest _ _ (hin ▸ List.subset_cons_self _ _) rfl
    · exact hostWriteReg_effect hin hoff ht
  · refine .quiet _ _ s.freeCount ?_ (hostPoll_eq rest s hidle)
    split
    · exact hin ▸ List.subset_cons_self _ _
    · exact List.Subset.refl _
  · exact .reset rest hin rfl

/-- What an idle write to a register can do. -/
theorem writeReg_cases (r : Reg) (v : Word) (s : State) :
    (r = .cmd ∧ writeReg r v s = acceptCommand v s) ∨
      (r = .dataIn ∧ s.len = s.cap ∧ writeReg r v s = { s with status := { s.status with overflow := true } }) ∨
      (r = .dataIn ∧ s.len ≠ s.cap ∧ writeReg r v s = appendByte (v.setWidth 8) s) ∨
      ∃ c a p, writeReg r v s = { s with ctrl := c, arg := a, flvPrev := p } := by
  cases r with
  | cmd => exact .inl ⟨rfl, rfl⟩
  | dataIn =>
    by_cases h : s.len = s.cap
    · exact .inr (.inl ⟨rfl, h, writeDataIn_full v h⟩)
    · exact .inr (.inr (.inl ⟨rfl, h, writeDataIn_room v h⟩))
  | _ => exact .inr (.inr (.inr ⟨_, _, _, rfl⟩))

/-! ## Faults and refusals (60_exceptions R238, R239) -/

theorem runCommandWord_next (w : Word) (s : State) : ∃ t, runCommandWord w s = .next t := by
  unfold runCommandWord
  split
  · exact exec_next _ s
  · exact ⟨_, rfl⟩

theorem engineTurn_next (s : State) : ∃ t, engineTurn s = .next t := by
  unfold engineTurn
  split
  · exact runCommandWord_next _ s
  · exact ⟨_, rfl⟩

/-- A step answers a next state, or a bus error to an illegal access at the head of the queue. -/
theorem step_next_or_illegal (s : State) :
    (∃ t, step s = .next t) ∨
      ∃ a rest why, s.inputs = .access a :: rest ∧ ¬ AccessLegal s.cap.toNat a ∧ step s = .fault (.busError why) := by
  unfold step
  split
  next => exact .inl (engineTurn_next s)
  next rest _ => exact .inl (engineTurn_next { s with inputs := rest })
  next a rest hin =>
    obtain hnext | ⟨why, hfault⟩ := hostAccess_cases a { s with inputs := rest }
    · exact .inl hnext
    · refine .inr ⟨a, rest, why, hin, fun hlegal => ?_, hfault⟩
      obtain ⟨t, ht⟩ := hostAccess_of_legal (s := { s with inputs := rest }) hlegal
      rw [ht] at hfault
      cases hfault
  next rest _ =>
    split
    · exact .inl (engineTurn_next s)
    · exact .inl ⟨_, rfl⟩
  next => exact .inl ⟨_, rfl⟩

/-- Settles O16, by `step_next_or_illegal`. -/
theorem onlyIllegalAccessesStopTheMachine : Obligations.OnlyIllegalAccessesStopTheMachine := by
  intro s
  obtain ⟨t, ht⟩ | ⟨a, rest, why, hin, hillegal, hfault⟩ := step_next_or_illegal s
  · rw [ht]
    exact ⟨fun _ h => (nomatch h), fun _ h => (nomatch h)⟩
  · rw [hfault]
    exact ⟨fun _ h => (nomatch h), fun _ _ => ⟨a, rest, hin, hillegal⟩⟩

/-! ## What every step keeps -/

theorem exec_cap {i : Instr} {s t : State} (h : exec i s = .next t) : t.cap = s.cap := by
  by_cases hi : i = .softReset
  · subst hi
    cases h
    rfl
  · exact (exec_frame h hi).cap

theorem exec_inputs {i : Instr} {s t : State} (h : exec i s = .next t) : t.inputs = s.inputs := by
  by_cases hi : i = .softReset
  · subst hi
    cases h
    rfl
  · exact (exec_frame h hi).inputs

theorem writeReg_cap (r : Reg) (v : Word) (s : State) : (writeReg r v s).cap = s.cap := by
  obtain ⟨-, he⟩ | ⟨-, -, he⟩ | ⟨-, -, he⟩ | ⟨c, a, p, he⟩ := writeReg_cases r v s <;> rw [he] <;> rfl

theorem writeReg_inputs (r : Reg) (v : Word) (s : State) : (writeReg r v s).inputs = s.inputs := by
  obtain ⟨-, he⟩ | ⟨-, -, he⟩ | ⟨-, -, he⟩ | ⟨c, a, p, he⟩ := writeReg_cases r v s <;> rw [he] <;> rfl

theorem step_cap {s t : State} (h : step s = .next t) : t.cap = s.cap := by
  obtain ⟨i, rest, -, -, -, hexec⟩ | ⟨rest, -, -, -, rfl⟩ | ⟨rest, r, n, -, rfl⟩ | ⟨v, rest, -, rfl⟩ |
    ⟨off, v, rest, -, -, rfl⟩ | ⟨r, v, rest, -, -, rfl⟩ | ⟨rest, -, rfl⟩ := step_effect h
  · exact (exec_cap hexec).trans rfl
  · rfl
  · rfl
  · rfl
  · rfl
  · exact writeReg_cap r v _
  · rfl

/-- Every input left was there before. -/
theorem step_inputs_subset {s t : State} (h : step s = .next t) : t.inputs ⊆ s.inputs := by
  obtain ⟨i, rest, hsub, -, -, hexec⟩ | ⟨rest, hsub, -, -, rfl⟩ | ⟨rest, r, n, hsub, rfl⟩ | ⟨v, rest, hin, rfl⟩ |
    ⟨off, v, rest, hin, -, rfl⟩ | ⟨r, v, rest, hin, -, rfl⟩ | ⟨rest, hin, rfl⟩ := step_effect h
  · exact exec_inputs hexec ▸ hsub
  · exact hsub
  · exact hsub
  · exact hin ▸ List.subset_cons_self _ _
  · exact hin ▸ List.subset_cons_self _ _
  · rw [respond_inputs, writeReg_inputs, hin]
    exact List.subset_cons_self _ _
  · exact hin ▸ List.subset_cons_self _ _

theorem step_hostSafe {s t : State} (h : step s = .next t) (hsafe : HostSafe s) : HostSafe t := fun a ha => by
  rw [step_cap h]
  exact hsafe a (step_inputs_subset h ha)

theorem step_of_hostSafe {s : State} (hsafe : HostSafe s) : ∃ t, step s = .next t := by
  obtain hnext | ⟨a, rest, why, hin, hillegal, -⟩ := step_next_or_illegal s
  · exact hnext
  · exact absurd (hsafe a (hin ▸ List.mem_cons_self)) hillegal

/-- Settles O17, by induction on the number of steps: a safe host's step answers, and its host is safe again. -/
theorem safeHostsRunForever : Obligations.SafeHostsRunForever := by
  intro n
  induction n with
  | zero => exact fun s _ => ⟨s, rfl⟩
  | succ n ih =>
    intro s hsafe
    obtain ⟨t, ht⟩ := step_of_hostSafe hsafe
    rw [run_succ_of_step n ht]
    exact ih t (step_hostSafe ht hsafe)

end Sys2Proof.Machine
end

section
/-! Proofs of the statements on what a step leaves unchanged (O46, O52, O53, O54), from its
effects, and of the host-program line (O5). -/

namespace Sys2Proof.Machine

/-! ## Results stay until the engine's turn (60_exceptions R231, logs 2 and 3) -/

/-- CODE and every result register are as they were. -/
def ResultsKept (s t : State) : Prop :=
  t.consumed = s.consumed ∧ t.skipped = s.skipped ∧ t.nal = s.nal ∧ t.adts = s.adts ∧ t.flvh = s.flvh ∧
    t.flvt = s.flvt ∧ t.amf = s.amf ∧ t.metaRows = s.metaRows ∧ t.rtp = s.rtp ∧ t.ts = s.ts ∧
    t.status.code = s.status.code

theorem writeReg_results (r : Reg) (v : Word) (s : State) : ResultsKept s (writeReg r v s) := by
  obtain ⟨-, he⟩ | ⟨-, -, he⟩ | ⟨-, -, he⟩ | ⟨c, a, p, he⟩ := writeReg_cases r v s <;> rw [he] <;>
    exact ⟨rfl, rfl, rfl, rfl, rfl, rfl, rfl, rfl, rfl, rfl, rfl⟩

theorem writeReg_lastOp {r : Reg} {v : Word} {s : State} (hr : r ≠ .cmd) :
    (writeReg r v s).status.lastOp = s.status.lastOp := by
  obtain ⟨hcmd, -⟩ | ⟨-, -, he⟩ | ⟨-, -, he⟩ | ⟨c, a, p, he⟩ := writeReg_cases r v s
  · exact absurd hcmd hr
  · rw [he]
  · rw [he]; rfl
  · rw [he]

theorem step_results {s t : State} (h : step s = .next t) (hreset : s.inputs.head? ≠ some .resetPin)
    (hengine : ¬ (EngineTurnNext s ∧ s.status.busy = true)) : ResultsKept s t := by
  obtain ⟨i, rest, -, hturn, hrun, -⟩ | ⟨rest, -, hturn, hbusy, -⟩ | ⟨rest, r, n, -, rfl⟩ | ⟨v, rest, -, rfl⟩ |
    ⟨off, v, rest, -, -, rfl⟩ | ⟨r, v, rest, -, -, rfl⟩ | ⟨rest, hin, -⟩ := step_effect h
  · exact absurd ⟨hturn, hrun.1⟩ hengine
  · exact absurd ⟨hturn, hbusy⟩ hengine
  · exact ⟨rfl, rfl, rfl, rfl, rfl, rfl, rfl, rfl, rfl, rfl, rfl⟩
  · exact ⟨rfl, rfl, rfl, rfl, rfl, rfl, rfl, rfl, rfl, rfl, rfl⟩
  · exact ⟨rfl, rfl, rfl, rfl, rfl, rfl, rfl, rfl, rfl, rfl, rfl⟩
  · exact writeReg_results r v { s with inputs := rest }
  · exact absurd (by rw [hin]; rfl) hreset

theorem step_lastOp {s t : State} (h : step s = .next t) (hreset : s.inputs.head? ≠ some .resetPin)
    (hengine : ¬ (EngineTurnNext s ∧ s.status.busy = true)) (hne : t.status.lastOp ≠ s.status.lastOp) :
    s.status.busy = false ∧ ∃ v rest, s.inputs = .access (.write .word 0x00C#32 v) :: rest := by
  obtain ⟨i, rest, -, hturn, hrun, -⟩ | ⟨rest, -, hturn, hbusy, -⟩ | ⟨rest, r, n, -, rfl⟩ | ⟨v, rest, -, rfl⟩ |
    ⟨off, v, rest, -, -, rfl⟩ | ⟨r, v, rest, hin, hidle, rfl⟩ | ⟨rest, hin, -⟩ := step_effect h
  · exact absurd ⟨hturn, hrun.1⟩ hengine
  · exact absurd ⟨hturn, hbusy⟩ hengine
  · exact absurd rfl hne
  · exact absurd rfl hne
  · exact absurd rfl hne
  · by_cases hr : r = .cmd
    · exact ⟨hidle, v, rest, by rw [hin, hr]; rfl⟩
    · exact absurd (writeReg_lastOp hr) hne
  · exact absurd (by rw [hin]; rfl) hreset

/-- Settles O46, from the frame and the completion of a command and the effects of a step. -/
theorem everyCommandCompletes : Obligations.EveryCommandCompletes := by
  refine ⟨fun i s => ?_, fun _ _ => rfl, fun s t h hreset hengine => ?_⟩
  · obtain ⟨t, ht⟩ := exec_next i s
    obtain ⟨hbusy, hdone⟩ := exec_completed ht
    exact ⟨t, ht, hbusy, hdone, fun hi => ⟨(exec_frame ht hi).lastOp, (exec_frame ht hi).overflow,
      (exec_frame ht hi).busyWrite⟩⟩
  · obtain ⟨h1, h2, h3, h4, h5, h6, h7, h8, h9, h10, h11⟩ := step_results h hreset hengine
    exact ⟨h1, h2, h3, h4, h5, h6, h7, h8, h9, h10, h11, step_lastOp h hreset hengine⟩

/-! ## A host-program line (30_encoding R99, log 2) -/

theorem step_write_arg {s : State} (a : Word) (rest : List Input) (hidle : s.status.busy = false) :
    step { s with inputs := wrLine .arg a :: rest } =
      .next { s with arg := a, inputs := rest, response := .writeOk } := by
  rw [wrLine, step_access]
  exact hostAccess_write_idle (r := .arg) a (by decide) rfl hidle

/-- Settles O5: the write of ARG where there is one, the CMD write and the engine's turn, and the end of the wait. -/
theorem commandLineRunsItsCommand : Obligations.CommandLineRunsItsCommand := by
  refine fun s i a rest hidle => ⟨fun _ => ?_, fun _ => run_cmd_wait i rest hidle, fun u t hin hexec => ?_⟩
  · exact (run_succ_of_step 2 (step_write_arg a _ hidle)).trans
      (run_cmd_wait (s := { s with arg := a, response := .writeOk }) i rest hidle)
  · obtain ⟨hbusy, hdone⟩ := exec_completed hexec
    exact step_wait_done ((exec_inputs hexec).trans hin) hbusy hdone

/-! ## POS, LEN and CAP (10_state R26) -/

theorem writeReg_pos (r : Reg) (v : Word) (s : State) : (writeReg r v s).pos = s.pos := by
  obtain ⟨-, he⟩ | ⟨-, -, he⟩ | ⟨-, -, he⟩ | ⟨c, a, p, he⟩ := writeReg_cases r v s <;> rw [he] <;> rfl

theorem step_pos {s t : State} (h : step s = .next t) (hne : t.pos ≠ s.pos) :
    (EngineTurnNext s ∧ ∃ i, Running s i) ∨ s.inputs.head? = some .resetPin := by
  obtain ⟨i, rest, -, hturn, hrun, -⟩ | ⟨rest, -, -, -, rfl⟩ | ⟨rest, r, n, -, rfl⟩ | ⟨v, rest, -, rfl⟩ |
    ⟨off, v, rest, -, -, rfl⟩ | ⟨r, v, rest, -, -, rfl⟩ | ⟨rest, hin, -⟩ := step_effect h
  · exact .inl ⟨hturn, i, hrun⟩
  · exact absurd rfl hne
  · exact absurd rfl hne
  · exact absurd rfl hne
  · exact absurd rfl hne
  · exact absurd (writeReg_pos r v _) hne
  · exact .inr (by rw [hin]; rfl)

theorem exec_len_of_ne {i : Instr} {s t : State} (h : exec i s = .next t) (hcompact : i ≠ .compact)
    (hreset : i ≠ .softReset) : t.len = s.len :=
  (exec_frame h hreset).len hcompact

theorem step_len {s t : State} (h : step s = .next t) (hne : t.len ≠ s.len) :
    (EngineTurnNext s ∧ (Running s .compact ∨ Running s .softReset)) ∨ s.inputs.head? = some .resetPin ∨
      (s.status.busy = false ∧ s.len ≠ s.cap ∧
        ∃ v rest, s.inputs = .access (.write .word 0x01C#32 v) :: rest) := by
  obtain ⟨i, rest, -, hturn, hrun, hexec⟩ | ⟨rest, -, -, -, rfl⟩ | ⟨rest, r, n, -, rfl⟩ | ⟨v, rest, -, rfl⟩ |
    ⟨off, v, rest, -, -, rfl⟩ | ⟨r, v, rest, hin, hidle, rfl⟩ | ⟨rest, hin, -⟩ := step_effect h
  · by_cases hcompact : i = .compact
    · exact .inl ⟨hturn, .inl (hcompact ▸ hrun)⟩
    · by_cases hreset : i = .softReset
      · exact .inl ⟨hturn, .inr (hreset ▸ hrun)⟩
      · exact absurd (exec_len_of_ne hexec hcompact hreset) hne
  · exact absurd rfl hne
  · exact absurd rfl hne
  · exact absurd rfl hne
  · exact absurd rfl hne
  · obtain hlen | ⟨rfl, hroom⟩ := writeReg_len r v { s with inputs := rest }
    · exact absurd hlen hne
    · exact .inr (.inr ⟨hidle, hroom, v, rest, hin⟩)
  · exact .inr (.inl (by rw [hin]; rfl))

/-- Settles O52, register by register. -/
theorem cursorRegistersChangeOnlyByTheirEvents : Obligations.CursorRegistersChangeOnlyByTheirEvents :=
  fun _ _ h => ⟨step_cap h, step_pos h, step_len h⟩

/-! ## OVERFLOW and BUSY_WRITE (10_state R23, log 11) -/

/-- A command keeps the sticky flags, or is SOFT_RESET and clears them. -/
theorem exec_sticky {i : Instr} {s t : State} (h : exec i s = .next t) :
    (t.status.overflow = s.status.overflow ∧ t.status.busyWrite = s.status.busyWrite) ∨
      (i = .softReset ∧ t.status.overflow = false ∧ t.status.busyWrite = false) := by
  by_cases hi : i = .softReset
  · subst hi
    cases h
    exact .inr ⟨rfl, rfl, rfl⟩
  · exact .inl ⟨(exec_frame h hi).overflow, (exec_frame h hi).busyWrite⟩

theorem writeReg_sticky (r : Reg) (v : Word) (s : State) :
    (writeReg r v s).status.busyWrite = s.status.busyWrite ∧
      ((writeReg r v s).status.overflow = s.status.overflow ∨
        (r = .dataIn ∧ s.len = s.cap ∧ (writeReg r v s).status.overflow = true)) := by
  obtain ⟨-, he⟩ | ⟨hr, hfull, he⟩ | ⟨-, -, he⟩ | ⟨c, a, p, he⟩ := writeReg_cases r v s <;> rw [he]
  · exact ⟨rfl, .inl rfl⟩
  · exact ⟨rfl, .inr ⟨hr, hfull, rfl⟩⟩
  · exact ⟨rfl, .inl rfl⟩
  · exact ⟨rfl, .inl rfl⟩

/-- How a step changes OVERFLOW: it keeps it, an idle DATA_IN write to a full buffer raises it, or a STATUS write, the
reset input or SOFT_RESET clears it. -/
theorem step_overflow {s t : State} (h : step s = .next t) :
    t.status.overflow = s.status.overflow ∨
      (t.status.overflow = true ∧ s.status.busy = false ∧ s.len = s.cap ∧
        ∃ v rest, s.inputs = .access (.write .word 0x01C#32 v) :: rest) ∨
      (t.status.overflow = false ∧
        ((∃ v rest, s.inputs = .access (.write .word 0x008#32 v) :: rest ∧ v.getLsbD 2 = true) ∨
          s.inputs.head? = some .resetPin ∨ (EngineTurnNext s ∧ Running s .softReset))) := by
  obtain ⟨i, rest, -, hturn, hrun, hexec⟩ | ⟨rest, -, -, -, rfl⟩ | ⟨rest, r, n, -, rfl⟩ | ⟨v, rest, hin, rfl⟩ |
    ⟨off, v, rest, -, -, rfl⟩ | ⟨r, v, rest, hin, hidle, rfl⟩ | ⟨rest, hin, rfl⟩ := step_effect h
  · obtain ⟨hkept, -⟩ | ⟨rfl, hclear, -⟩ := exec_sticky hexec
    · exact .inl hkept
    · exact .inr (.inr ⟨hclear, .inr (.inr ⟨hturn, hrun⟩)⟩)
  · exact .inl rfl
  · exact .inl rfl
  · cases hbit : v.getLsbD 2 with
    | true => exact .inr (.inr ⟨by simp [Status.writeOneToClear, hbit], .inl ⟨v, rest, hin, hbit⟩⟩)
    | false => exact .inl (by simp [Status.writeOneToClear, hbit, -BitVec.getLsbD_eq_getElem])
  · exact .inl rfl
  · obtain ⟨-, hkept | ⟨rfl, hfull, hset⟩⟩ := writeReg_sticky r v { s with inputs := rest }
    · exact .inl hkept
    · exact .inr (.inl ⟨hset, hidle, hfull, v, rest, hin⟩)
  · exact .inr (.inr ⟨rfl, .inr (.inl (by rw [hin]; rfl))⟩)

/-- How a step changes BUSY_WRITE: it keeps it, a write while BUSY raises it, or a STATUS write, the reset input or
SOFT_RESET clears it. -/
theorem step_busyWrite {s t : State} (h : step s = .next t) :
    t.status.busyWrite = s.status.busyWrite ∨
      (t.status.busyWrite = true ∧ s.status.busy = true ∧
        ∃ off v rest, s.inputs = .access (.write .word off v) :: rest) ∨
      (t.status.busyWrite = false ∧
        ((∃ v rest, s.inputs = .access (.write .word 0x008#32 v) :: rest ∧ v.getLsbD 3 = true) ∨
          s.inputs.head? = some .resetPin ∨ (EngineTurnNext s ∧ Running s .softReset))) := by
  obtain ⟨i, rest, -, hturn, hrun, hexec⟩ | ⟨rest, -, -, -, rfl⟩ | ⟨rest, r, n, -, rfl⟩ | ⟨v, rest, hin, rfl⟩ |
    ⟨off, v, rest, hin, hbusy, rfl⟩ | ⟨r, v, rest, -, -, rfl⟩ | ⟨rest, hin, rfl⟩ := step_effect h
  · obtain ⟨-, hkept⟩ | ⟨rfl, -, hclear⟩ := exec_sticky hexec
    · exact .inl hkept
    · exact .inr (.inr ⟨hclear, .inr (.inr ⟨hturn, hrun⟩)⟩)
  · exact .inl rfl
  · exact .inl rfl
  · cases hbit : v.getLsbD 3 with
    | true => exact .inr (.inr ⟨by simp [Status.writeOneToClear, hbit], .inl ⟨v, rest, hin, hbit⟩⟩)
    | false => exact .inl (by simp [Status.writeOneToClear, hbit, -BitVec.getLsbD_eq_getElem])
  · exact .inr (.inl ⟨rfl, hbusy, off, v, rest, hin⟩)
  · exact .inl (writeReg_sticky r v { s with inputs := rest }).1
  · exact .inr (.inr ⟨rfl, .inr (.inl (by rw [hin]; rfl))⟩)

/-- What changed by one of three ways, risen is by the second and fallen by the third. -/
theorem flag_events {b b' : Bool} {rises falls : Prop}
    (h : b' = b ∨ (b' = true ∧ rises) ∨ (b' = false ∧ falls)) :
    (b = false → b' = true → rises) ∧ (b = true → b' = false → falls) := by
  obtain rfl | ⟨rfl, hrises⟩ | ⟨rfl, hfalls⟩ := h
  · exact ⟨fun hf ht => absurd (hf.symm.trans ht) (by decide), fun ht hf => absurd (hf.symm.trans ht) (by decide)⟩
  · exact ⟨fun _ _ => hrises, fun _ hf => absurd hf (by decide)⟩
  · exact ⟨fun _ ht => absurd ht (by decide), fun _ _ => hfalls⟩

/-- Settles O53, flag by flag. -/
theorem stickyFlagsStay : Obligations.StickyFlagsStay := by
  intro s t h
  obtain ⟨hrise, hfall⟩ := flag_events (step_overflow h)
  obtain ⟨hriseBW, hfallBW⟩ := flag_events (step_busyWrite h)
  exact ⟨hrise, hriseBW, hfall, hfallBW⟩

/-! ## Bytes below LEN (70_reset_and_hazards R263) -/

/-- An append leaves LEN one higher and every byte below it. -/
theorem appendByte_keeps {s : State} (hinv : s.Inv) (hroom : s.len ≠ s.cap) (b : Byte) :
    s.len.toNat ≤ (appendByte b s).len.toNat ∧
      ∀ i, i < s.len.toNat → Memory.read (appendByte b s).ibuf i = Memory.read s.ibuf i := by
  have hlen : (appendByte b s).len.toNat = s.len.toNat + 1 := hinv.len_succ_toNat hroom
  refine ⟨by omega, fun i hi => ?_⟩
  rw [appendByte, Memory.read_write hinv.mem_wf, if_neg hi.ne]

theorem writeReg_keeps_bytes {s : State} (hinv : s.Inv) (r : Reg) (v : Word) (rest : List Input) :
    s.len.toNat ≤ (writeReg r v { s with inputs := rest }).len.toNat ∧
      ∀ i, i < s.len.toNat →
        Memory.read (writeReg r v { s with inputs := rest }).ibuf i = Memory.read s.ibuf i := by
  obtain ⟨-, he⟩ | ⟨-, -, he⟩ | ⟨-, hroom, he⟩ | ⟨c, a, p, he⟩ := writeReg_cases r v { s with inputs := rest } <;>
    rw [he]
  · exact ⟨le_rfl, fun _ _ => rfl⟩
  · exact ⟨le_rfl, fun _ _ => rfl⟩
  · exact appendByte_keeps hinv hroom (v.setWidth 8)
  · exact ⟨le_rfl, fun _ _ => rfl⟩

/-- Settles O54, from the effects of a step: a command but the two keeps LEN and IBUF, and a write appends at most. -/
theorem slicesStayValidUntilCompactOrReset : Obligations.SlicesStayValidUntilCompactOrReset := by
  intro s t hinv h hreset hengine
  obtain ⟨i, rest, -, hturn, hrun, hexec⟩ | ⟨rest, -, -, -, rfl⟩ | ⟨rest, r, n, -, rfl⟩ | ⟨v, rest, -, rfl⟩ |
    ⟨off, v, rest, -, -, rfl⟩ | ⟨r, v, rest, -, -, rfl⟩ | ⟨rest, hin, -⟩ := step_effect h
  · have hcompact : i ≠ .compact := fun hi => hengine ⟨hturn, .inl (hi ▸ hrun)⟩
    have hsoft : i ≠ .softReset := fun hi => hengine ⟨hturn, .inr (hi ▸ hrun)⟩
    have hframe := exec_frame hexec hsoft
    exact ⟨(congrArg BitVec.toNat (hframe.len hcompact)).ge,
      fun k _ => congrArg (Memory.read · k) (hframe.ibuf hcompact)⟩
  · exact ⟨le_rfl, fun _ _ => rfl⟩
  · exact ⟨le_rfl, fun _ _ => rfl⟩
  · exact ⟨le_rfl, fun _ _ => rfl⟩
  · exact ⟨le_rfl, fun _ _ => rfl⟩
  · exact writeReg_keeps_bytes hinv r v rest
  · exact absurd (by rw [hin]; rfl) hreset

end Sys2Proof.Machine
end

section
/-! Proof of O47: a command that ran short, run again, ends the same way. -/

namespace Sys2Proof.Machine

/-! ## A body does not look at STATUS, and sets it anew at its end (60_exceptions R231) -/

section Again
variable (l : Latch) (c : ResultCode) (s : State)

theorem nalNextBody_complete : nalNextBody l (complete c s) = nalNextBody l s := rfl

theorem adtsNextBody_complete : adtsNextBody l (complete c s) = adtsNextBody l s := rfl

theorem flvHeaderBody_complete : flvHeaderBody l (complete c s) = flvHeaderBody l s := rfl

theorem flvNextTagBody_complete : flvNextTagBody l (complete c s) = flvNextTagBody l s := rfl

theorem rtpParseBody_complete : rtpParseBody l (complete c (cancelIterator s)) = rtpParseBody l s := rfl

end Again

/-! ## The retry (40_cursor R110, R111) -/

section Retry
variable {s t : State}

theorem exec_nalNext_retry (h : exec .nalNext s = .next t) (hcode : t.status.code = .needMoreData) :
    exec .nalNext t = .next t := by
  obtain ⟨i, c, e, -, -, hexec⟩ | ⟨code, -, hexec⟩ := exec_nalNext_cases s
  · obtain rfl := exec_unique h hexec
    cases hcode
  · obtain rfl := exec_unique h hexec
    exact (congrArg _ (nalNextBody_complete s.latch code (startCommand .nalNext s))).trans h

theorem exec_adtsNext_retry (h : exec .adtsNext s = .next t) (hcode : t.status.code = .needMoreData) :
    exec .adtsNext t = .next t := by
  obtain ⟨i, -, -, -, hexec⟩ | ⟨code, -, so, g, -, hexec⟩ := exec_adtsNext_cases s
  · obtain rfl := exec_unique h hexec
    cases hcode
  · obtain rfl := exec_unique h hexec
    exact (congrArg _ (adtsNextBody_complete s.latch code (startCommand .adtsNext s))).trans h

/-- FLV_HEADER starts the previous-tag state anew in the branch of a header not whole, where the retry does it again. -/
theorem exec_flvHeader_retry (h : exec .flvHeader s = .next t) (hcode : t.status.code = .needMoreData) :
    exec .flvHeader t = .next t := by
  have hbody : flvHeaderBody s.latch (startCommand .flvHeader s) = t := Host.Outcome.next.inj h
  by_cases h9 : 9 ≤ s.latch.avail
  swap
  · rw [flvHeaderBody_short s.latch (startCommand .flvHeader s) (not_le.mp h9)] at hbody
    subst hbody
    exact (congrArg _ (flvHeaderBody_complete s.latch (shortfallCode s.latch 9) (startCommand .flvHeader s))).trans h
  by_cases hsig : bytesAt s.ibuf s.pos.toNat 3 = [0x46#8, 0x4C#8, 0x56#8]
  swap
  · rw [flvHeaderBody_badSignature s.latch (startCommand .flvHeader s) h9 hsig] at hbody
    subst hbody
    cases hcode
  by_cases hend : memRead s.ibuf (s.pos.toNat + 5) 4 ≤ s.latch.avail
  · rw [flvHeaderBody_whole s.latch (startCommand .flvHeader s) h9 hsig hend] at hbody
    subst hbody
    cases hcode
  · rw [flvHeaderBody_partial s.latch (startCommand .flvHeader s) h9 hsig (not_le.mp hend)] at hbody
    subst hbody
    exact congrArg _ (flvHeaderBody_partial s.latch
      (complete (shortfallCode s.latch (memRead s.ibuf (s.pos.toNat + 5) 4))
        { startCommand .flvHeader s with flvPrev := .zero }) h9 hsig (not_le.mp hend))

theorem exec_flvNextTag_retry (h : exec .flvNextTag s = .next t) (hcode : t.status.code = .needMoreData) :
    exec .flvNextTag t = .next t := by
  obtain ⟨code, -, g, -, hexec⟩ | ⟨-, ⟨code, f, ⟨-, hcodes, -⟩, hexec⟩ | ⟨-, hexec⟩⟩ := exec_flvNextTag_cases s
  · obtain rfl := exec_unique h hexec
    exact (congrArg _ (flvNextTagBody_complete s.latch code (startCommand .flvNextTag s))).trans h
  · obtain rfl := exec_unique h hexec
    obtain rfl : code = .needMoreData := hcode
    exact absurd hcodes (by decide)
  · obtain rfl := exec_unique h hexec
    have hended : AmfEnded (tagScript s) := amfDecode_ended _ _ _ rowsLegal_zero
    rw [complete_status, status_raise_code] at hcode
    obtain hended | hended | hended := hended.code <;> rw [hended] at hcode <;> cases hcode

theorem exec_rtpParse_retry (h : exec .rtpParse s = .next t) (hcode : t.status.code = .needMoreData) :
    exec .rtpParse t = .next t := by
  obtain ⟨-, code, g, it, hcodes, -, hexec⟩ | ⟨-, code, -, hexec⟩ := exec_rtpParse_cases s
  · obtain rfl := exec_unique h hexec
    obtain rfl : code = .needMoreData := hcode
    obtain ⟨hcodes, -⟩ | hcodes := hcodes <;> cases hcodes
  · obtain rfl := exec_unique h hexec
    exact (congrArg _ (rtpParseBody_complete s.latch code (startCommand .rtpParse s))).trans h

end Retry

/-- Only the five commands above end in NEED_MORE_DATA. -/
theorem exec_retry {i : Instr} {s t : State} (h : exec i s = .next t) (hcode : t.status.code = .needMoreData) :
    exec i t = .next t := by
  have hraisable : ResultCode.needMoreData ∈ raisable i := hcode ▸ commandsEndInTheirOwnCodes i s t h
  cases i with
  | nalNext => exact exec_nalNext_retry h hcode
  | adtsNext => exact exec_adtsNext_retry h hcode
  | flvHeader => exact exec_flvHeader_retry h hcode
  | flvNextTag => exact exec_flvNextTag_retry h hcode
  | rtpParse => exact exec_rtpParse_retry h hcode
  | tsNext | seek | advance | compact | softReset => exact absurd hraisable (by decide)

/-- Settles O47. -/
theorem shortfallConsumesNothing : Obligations.ShortfallConsumesNothing :=
  ⟨fun _ _ _ => rfl, fun _ _ _ => exec_short_consumes_nothing, fun _ _ _ => exec_retry⟩

end Sys2Proof.Machine
end

section
/-! Proofs about the invariant (O55, O56): the reset state meets it, and each effect of a step keeps its parts. -/

namespace Sys2Proof.Machine

/-! ## The reset state (10_state R45, log 4) -/

theorem State.resetWith_inv {cap : Word} (hmin : 64 ≤ cap.toNat) (hmax : cap.toNat ≤ 16777216) :
    (State.resetWith cap).Inv where
  cap_min := hmin
  cap_max := hmax
  pos_le_len := le_rfl
  len_le_cap := Nat.zero_le _
  iter_order := fun _ => le_rfl
  iter_end := fun _ => le_rfl
  mem_wf := Memory.wf_nil
  mem_below := Memory.below_nil _
  iter_idle := fun _ => rfl
  busy_not_done := fun _ => rfl
  consumed_le_pos := le_rfl
  scLen_legal := .inl rfl
  hdrLen_legal := .inl rfl
  mismatch_checked := id
  partial_decoded := id
  meta_absent := fun i => (rowsLegal_zero i).1
  meta_type := fun i => (rowsLegal_zero i).2
  tsPayLen_legal := .inl rfl

/-- Settles O56; the recommended BUF_CAP is within the bounds. -/
theorem resetMeetsTheInvariant : Obligations.ResetMeetsTheInvariant :=
  ⟨State.resetWith_inv (by decide) (by decide), fun _ => State.resetWith_inv⟩

/-! ## What the host changes -/

/-- CTRL, ARG, the previous-tag state and the model's own fields are free, and STATUS but for BUSY and DONE. -/
theorem State.Inv.of_host {s : State} (h : s.Inv) {st : Status} (hst : st.busy = true → st.done = false)
    (c : Ctrl) (a : Word) (p : FlvPrev) (l : List Input) (r : Response) (n : Nat) :
    State.Inv { s with ctrl := c, status := st, arg := a, flvPrev := p, inputs := l, response := r, freeCount := n } :=
  ⟨⟨h.cap_min, h.cap_max, h.pos_le_len, h.len_le_cap, h.iter_order, h.iter_end⟩, h.mem_wf, h.mem_below, h.iter_idle,
    hst, h.consumed_le_pos, h.scLen_legal, h.hdrLen_legal, h.mismatch_checked, h.partial_decoded, h.meta_absent,
    h.meta_type, h.tsPayLen_legal⟩

theorem State.Inv.appendByte {s : State} (h : s.Inv) (hroom : s.len ≠ s.cap) (b : Byte) :
    (appendByte b s).Inv := by
  have hlen : (Machine.appendByte b s).len.toNat = s.len.toNat + 1 := h.len_succ_toNat hroom
  have hne : s.len.toNat ≠ s.cap.toNat := fun e => hroom (BitVec.eq_of_toNat_eq e)
  have hcap := h.len_le_cap
  refine ⟨⟨h.cap_min, h.cap_max, ?_, ?_, h.iter_order, fun ha => ?_⟩, Memory.write_wf h.mem_wf _ _, ?_, h.iter_idle,
    h.busy_not_done, h.consumed_le_pos, h.scLen_legal, h.hdrLen_legal, h.mismatch_checked, h.partial_decoded,
    h.meta_absent, h.meta_type, h.tsPayLen_legal⟩
  · rw [hlen]; exact h.pos_le_len.trans (Nat.le_succ _)
  · rw [hlen, appendByte_cap]; omega
  · rw [hlen]; exact (h.iter_end ha).trans (Nat.le_succ _)
  · rw [hlen]; exact Memory.write_below h.mem_below b

theorem State.Inv.writeReg {s : State} (h : s.Inv) (r : Reg) (v : Word) : (writeReg r v s).Inv := by
  obtain ⟨-, he⟩ | ⟨-, -, he⟩ | ⟨-, hroom, he⟩ | ⟨c, a, p, he⟩ := writeReg_cases r v s <;> rw [he]
  · exact h.of_host (st := s.status.accept (v.setWidth 8)) (fun _ => rfl) _ _ _ _ _ _
  · exact h.of_host (st := { s.status with overflow := true }) h.busy_not_done _ _ _ _ _ _
  · exact h.appendByte hroom _
  · exact h.of_host h.busy_not_done _ _ _ _ _ _

/-! ## What a command changes, part by part -/

/-- The TS iterator is within the bytes below `n` (44_rtp R214). -/
structure IterLegal (it : TsIter) (n : Nat) : Prop where
  order : it.active = true → it.nextOff.toNat ≤ it.endOff.toNat
  stop : it.active = true → it.endOff.toNat ≤ n
  idle : it.active = false → it = TsIter.zero

theorem iterLegal_zero (n : Nat) : IterLegal .zero n := ⟨fun h => (nomatch h), fun h => (nomatch h), fun _ => rfl⟩

theorem State.Inv.iter {s : State} (h : s.Inv) : IterLegal s.tsIter s.len.toNat :=
  ⟨h.iter_order, h.iter_end, h.iter_idle⟩

theorem exec_iterLegal {i : Instr} {s t : State} (hinv : s.Inv) (h : exec i s = .next t) :
    IterLegal t.tsIter t.len.toNat := by
  have hle := hinv.pos_le_len
  cases i with
  | rtpParse =>
    obtain ⟨hwhole, code, g, it, -, hit, hexec⟩ | ⟨-, code, -, hexec⟩ := exec_rtpParse_cases s
    · obtain rfl := exec_unique h hexec
      obtain rfl | ⟨h12, rfl⟩ := hit
      · exact iterLegal_zero _
      · have hnext := word_ofN_toNat_of_le (n := s.pos.toNat + 12) (w := s.len) (by omega)
        have hend := word_ofN_toNat_of_le (n := s.pos.toNat + s.arg.toNat) (w := s.len) (by omega)
        refine ⟨fun _ => ?_, fun _ => ?_, fun hidle => nomatch hidle⟩
        · rw [complete_tsIter, hnext, hend]; omega
        · rw [complete_tsIter, hend]; exact (by omega : s.pos.toNat + s.arg.toNat ≤ s.len.toNat)
    · obtain rfl := exec_unique h hexec
      exact iterLegal_zero _
  | tsNext =>
    obtain ⟨code, -, g, it, -, hit, hexec⟩ := exec_tsNext_cases s
    obtain rfl := exec_unique h hexec
    obtain rfl | rfl | ⟨hactive, hroom, index, rfl⟩ := hit
    · exact hinv.iter
    · exact iterLegal_zero _
    · have hnext := word_ofN_toNat_of_le hroom
      refine ⟨fun _ => ?_, fun _ => hinv.iter_end hactive, fun hidle => nomatch hidle⟩
      rw [complete_tsIter, hnext]
      exact hroom
  | compact | softReset => cases h; exact iterLegal_zero _
  | _ =>
    have hframe := exec_frame h (by decide)
    rw [hframe.tsIter (by decide) (by decide) (by decide), hframe.len (by decide)]
    exact hinv.iter

/-- IBUF in its canonical form below `n` (10_state R40). -/
structure MemoryLegal (m : Memory) (n : Nat) : Prop where
  wf : Memory.wf m
  below : Memory.below m n

theorem State.Inv.memory {s : State} (h : s.Inv) : MemoryLegal s.ibuf s.len.toNat := ⟨h.mem_wf, h.mem_below⟩

theorem exec_memoryLegal {i : Instr} {s t : State} (hinv : s.Inv) (h : exec i s = .next t) :
    MemoryLegal t.ibuf t.len.toNat := by
  by_cases hcompact : i = .compact
  · subst hcompact
    cases h
    have hlen := word_ofN_toNat_of_le (Nat.sub_le s.len.toNat s.pos.toNat)
    refine ⟨Memory.compacted_wf hinv.mem_wf _ _, ?_⟩
    exact hlen.symm ▸ Memory.compacted_below s.ibuf s.pos.toNat s.len.toNat
  by_cases hreset : i = .softReset
  · subst hreset
    cases h
    exact ⟨Memory.wf_nil, Memory.below_nil _⟩
  have hframe := exec_frame h hreset
  rw [hframe.ibuf hcompact, hframe.len hcompact]
  exact hinv.memory

/-- POS is at most LEN, and CONSUMED at most POS. -/
theorem exec_pos_legal {i : Instr} {s t : State} (hinv : s.Inv) (h : exec i s = .next t) :
    t.pos.toNat ≤ t.len.toNat ∧ t.consumed.toNat ≤ t.pos.toNat := by
  by_cases hcursor : i = .seek ∨ i = .compact ∨ i = .softReset
  · rw [exec_consumed_eq_zero h hcursor]
    refine ⟨?_, Nat.zero_le _⟩
    obtain rfl | rfl | rfl := hcursor
    · rw [(exec_frame h (by decide)).len (by decide)]
      obtain hle | hlt := le_or_gt s.arg.toNat s.len.toNat
      · obtain rfl := exec_unique h (exec_seek_of_le hle)
        exact hle
      · obtain rfl := exec_unique h (exec_seek_of_lt hlt)
        exact hinv.pos_le_len
    · cases h
      exact Nat.zero_le _
    · cases h
      exact le_rfl
  · obtain ⟨hseek, hcompact, hreset⟩ : i ≠ .seek ∧ i ≠ .compact ∧ i ≠ .softReset := by
      simpa only [not_or] using hcursor
    obtain ⟨hsum, hbound⟩ := (exec_cursor h hseek hcompact hreset).toNat hinv.pos_le_len
    rw [(exec_frame h hreset).len hcompact]
    exact ⟨hbound, by omega⟩

/-- The legal values of the result fields that are not free (10_state R29 to R38). -/
structure ResultsLegal (s : State) : Prop where
  scLen : s.nal.scLen = 0#3 ∨ s.nal.scLen = 3#3 ∨ s.nal.scLen = 4#3
  hdrLen : s.adts.hdrLen = 0#4 ∨ s.adts.hdrLen = 7#4 ∨ s.adts.hdrLen = 9#4
  mismatch : s.flvt.ptsMismatch = true → s.flvt.ptsChecked = true
  amfPartial : s.amf.partialDecode = true → s.amf.decoded = true
  rows : RowsLegal s.metaRows
  tsPayLen : s.ts.payLen = 0#32 ∨ s.ts.payLen = 184#32

theorem State.Inv.results {s : State} (h : s.Inv) : ResultsLegal s :=
  ⟨h.scLen_legal, h.hdrLen_legal, h.mismatch_checked, h.partial_decoded, fun i => ⟨h.meta_absent i, h.meta_type i⟩,
    h.tsPayLen_legal⟩

theorem exec_nalNext_scLen {s t : State} (h : exec .nalNext s = .next t) :
    t.nal.scLen = 0#3 ∨ t.nal.scLen = 3#3 ∨ t.nal.scLen = 4#3 := by
  obtain ⟨i, c, e, hfirst, -, hexec⟩ | ⟨code, -, hexec⟩ := exec_nalNext_cases s
  · obtain rfl := exec_unique h hexec
    rw [nalReport_eq]
    obtain rfl | rfl := hfirst.2.1.length_cases
    · exact .inr (.inr rfl)
    · exact .inr (.inl rfl)
  · obtain rfl := exec_unique h hexec
    exact .inl rfl

theorem adtsHeader_hdrLen (m : Memory) (i : Nat) :
    (adtsHeader m i).hdrLen = 7#4 ∨ (adtsHeader m i).hdrLen = 9#4 := by
  rw [adtsHeader_eq]
  cases (Memory.read m (i + 1)).getLsbD 0
  · exact .inr rfl
  · exact .inl rfl

theorem exec_adtsNext_hdrLen {s t : State} (h : exec .adtsNext s = .next t) :
    t.adts.hdrLen = 0#4 ∨ t.adts.hdrLen = 7#4 ∨ t.adts.hdrLen = 9#4 := by
  obtain ⟨i, -, -, -, hexec⟩ | ⟨code, -, so, g, rfl | ⟨i, rfl⟩, hexec⟩ := exec_adtsNext_cases s
  · obtain rfl := exec_unique h hexec
    exact .inr (adtsHeader_hdrLen s.ibuf i)
  · obtain rfl := exec_unique h hexec
    exact .inl rfl
  · obtain rfl := exec_unique h hexec
    exact .inr (adtsHeader_hdrLen s.ibuf i)

theorem tagChecked_mismatch (s : State) (h : (tagChecked s).ptsMismatch = true) : (tagChecked s).ptsChecked = true := by
  rw [tagChecked] at h ⊢
  exact Bool.and_elim_left h

/-- What FLV_NEXT_TAG leaves in its groups. -/
structure TagResultsLegal (t : State) : Prop where
  mismatch : t.flvt.ptsMismatch = true → t.flvt.ptsChecked = true
  amfPartial : t.amf.partialDecode = true → t.amf.decoded = true
  rows : RowsLegal t.metaRows

theorem exec_flvNextTag_results {s t : State} (h : exec .flvNextTag s = .next t) : TagResultsLegal t := by
  obtain ⟨code, -, g, hg, hexec⟩ | ⟨-, ⟨code, f, ⟨-, -, hf⟩, hexec⟩ | ⟨-, hexec⟩⟩ := exec_flvNextTag_cases s
  · obtain rfl := exec_unique h hexec
    refine ⟨?_, id, rowsLegal_zero⟩
    obtain rfl | rfl := hg
    · exact id
    · exact fun hm => nomatch hm
  · obtain rfl := exec_unique h hexec
    refine ⟨?_, ?_, ?_⟩
    · simp only [complete_flvt]
      rw [hf]
      exact tagChecked_mismatch s
    · simp only [complete_amf, tagConsumed_amf]
      exact id
    · simp only [complete_metaRows, tagConsumed_metaRows]
      exact rowsLegal_zero
  · obtain rfl := exec_unique h hexec
    have hended : AmfEnded (tagScript s) := amfDecode_ended _ _ _ rowsLegal_zero
    refine ⟨?_, fun _ => hended.decoded, hended.rows⟩
    rw [tagConsumed]
    exact tagChecked_mismatch s

theorem exec_rtpParse_tsPayLen {s t : State} (h : exec .rtpParse s = .next t) : t.ts.payLen = 0#32 := by
  obtain ⟨-, code, g, it, -, -, hexec⟩ | ⟨-, code, -, hexec⟩ := exec_rtpParse_cases s
  · obtain rfl := exec_unique h hexec
    rfl
  · obtain rfl := exec_unique h hexec
    rfl

theorem exec_tsNext_payLen {s t : State} (h : exec .tsNext s = .next t) :
    t.ts.payLen = 0#32 ∨ t.ts.payLen = 184#32 := by
  obtain ⟨code, -, g, it, hpay, -, hexec⟩ := exec_tsNext_cases s
  obtain rfl := exec_unique h hexec
  exact hpay

/-- The groups of every other command are as they were (40_cursor R112). -/
theorem exec_resultsLegal {i : Instr} {s t : State} (hinv : s.Inv) (h : exec i s = .next t)
    (hreset : i ≠ .softReset) : ResultsLegal t := by
  have hframe := exec_frame h hreset
  have hres := hinv.results
  refine ⟨?_, ?_, ?_, ?_, ?_, ?_⟩
  · by_cases hi : i = .nalNext
    · exact exec_nalNext_scLen (hi ▸ h)
    · rw [hframe.nal hi]; exact hres.scLen
  · by_cases hi : i = .adtsNext
    · exact exec_adtsNext_hdrLen (hi ▸ h)
    · rw [hframe.adts hi]; exact hres.hdrLen
  · by_cases hi : i = .flvNextTag
    · exact (exec_flvNextTag_results (hi ▸ h)).mismatch
    · rw [hframe.flvt hi]; exact hres.mismatch
  · by_cases hi : i = .flvNextTag
    · exact (exec_flvNextTag_results (hi ▸ h)).amfPartial
    · rw [hframe.amf hi]; exact hres.amfPartial
  · by_cases hi : i = .flvNextTag
    · exact (exec_flvNextTag_results (hi ▸ h)).rows
    · rw [hframe.metaRows hi]; exact hres.rows
  · by_cases hrtp : i = .rtpParse
    · exact .inl (exec_rtpParse_tsPayLen (hrtp ▸ h))
    · by_cases hts : i = .tsNext
      · exact exec_tsNext_payLen (hts ▸ h)
      · rw [hframe.ts hrtp hts]; exact hres.tsPayLen

/-! ## The invariant under a step -/

theorem exec_inv {i : Instr} {s t : State} (hinv : s.Inv) (h : exec i s = .next t) : t.Inv := by
  by_cases hreset : i = .softReset
  · subst hreset
    cases h
    exact (State.resetWith_inv hinv.cap_min hinv.cap_max).of_host (st := ⟨false, true, false, false, .ok, 0x1F#8⟩)
      (fun hb => nomatch hb) _ _ _ _ _ _
  have hcap := exec_cap h
  have hlen := exec_len_le h
  obtain ⟨hpos, hconsumed⟩ := exec_pos_legal hinv h
  obtain ⟨horder, hstop, hidle⟩ := exec_iterLegal hinv h
  obtain ⟨hwf, hbelow⟩ := exec_memoryLegal hinv h
  obtain ⟨hbusy, -⟩ := exec_completed h
  obtain ⟨hscLen, hhdrLen, hmismatch, hpartial, hrows, htsPayLen⟩ := exec_resultsLegal hinv h hreset
  exact ⟨⟨hcap ▸ hinv.cap_min, hcap ▸ hinv.cap_max, hpos, hcap ▸ hlen.trans hinv.len_le_cap, horder, hstop⟩, hwf,
    hbelow, hidle, fun hb => absurd (hbusy.symm.trans hb) (by decide), hconsumed, hscLen, hhdrLen, hmismatch, hpartial,
    fun k => (hrows k).1, fun k => (hrows k).2, htsPayLen⟩

theorem State.Inv.inputs {s : State} (h : s.Inv) (rest : List Input) : State.Inv { s with inputs := rest } :=
  h.of_host h.busy_not_done _ _ _ _ _ _

/-- Settles O55, effect by effect. -/
theorem everyStepKeepsTheInvariant : Obligations.EveryStepKeepsTheInvariant := by
  intro s t hinv h
  obtain ⟨i, rest, -, -, -, hexec⟩ | ⟨rest, -, -, -, rfl⟩ | ⟨rest, r, n, -, rfl⟩ | ⟨v, rest, -, rfl⟩ |
    ⟨off, v, rest, -, hbusy, rfl⟩ | ⟨r, v, rest, -, -, rfl⟩ | ⟨rest, -, rfl⟩ := step_effect h
  · exact exec_inv (hinv.inputs rest) hexec
  · exact hinv.of_host (st := s.status.raise .cmdError) (fun hb => nomatch hb) _ _ _ _ _ _
  · exact hinv.of_host hinv.busy_not_done _ _ _ _ _ _
  · refine hinv.of_host (st := s.status.writeOneToClear v) (fun hb => ?_) _ _ _ _ _ _
    have hdone : s.status.done = false := hinv.busy_not_done hb
    simp [Status.writeOneToClear, hdone]
  · exact hinv.of_host (st := { s.status with busyWrite := true }) hinv.busy_not_done _ _ _ _ _ _
  · have hwrite := (hinv.inputs rest).writeReg r v
    exact hwrite.of_host hwrite.busy_not_done _ _ _ _ _ _
  · exact (State.resetWith_inv hinv.cap_min hinv.cap_max).of_host (st := .zero) (fun hb => nomatch hb) _ _ _ _ _ _

end Sys2Proof.Machine
end

section
/-! Proof of O57: what a step does depends on no byte of IBUF at or above LEN. Each command's body reads below LEN, so
with another buffer that agrees there it does the same. -/

namespace Sys2Proof.Machine

/-- Two buffers with the same bytes below `n`. -/
def SameBelow (n : Nat) (m m' : Memory) : Prop := ∀ k, k < n → Memory.read m k = Memory.read m' k

/-- The state with another buffer. -/
def withMemory (m : Memory) (s : State) : State := { s with ibuf := m }

@[simp] theorem withMemory_ibuf (m : Memory) (s : State) : (withMemory m s).ibuf = m := rfl
@[simp] theorem withMemory_status (m : Memory) (s : State) : (withMemory m s).status = s.status := rfl
@[simp] theorem withMemory_cap (m : Memory) (s : State) : (withMemory m s).cap = s.cap := rfl
@[simp] theorem withMemory_inputs (m : Memory) (s : State) : (withMemory m s).inputs = s.inputs := rfl

section Reads
variable {n : Nat} {m m' : Memory}

theorem SameBelow.symm (hm : SameBelow n m m') : SameBelow n m' m := fun k hk => (hm k hk).symm

theorem SameBelow.memRead (hm : SameBelow n m m') {i j : Nat} (h : i + j ≤ n) : memRead m i j = memRead m' i j :=
  memRead_congr fun k _ hk => hm k (hk.trans_le h)

theorem SameBelow.bytesAt (hm : SameBelow n m m') {i j : Nat} (h : i + j ≤ n) : bytesAt m i j = bytesAt m' i j :=
  bytesAt_congr fun k _ hk => hm k (hk.trans_le h)

/-! ## NAL_NEXT -/

theorem SameBelow.startCode (hm : SameBelow n m m') : startCode m n = startCode m' n := by
  funext i
  ext c
  rw [startCode_eq_some_iff, startCode_eq_some_iff]
  exact ⟨.congr hm.symm, .congr hm⟩

theorem SameBelow.firstStartCode (hm : SameBelow n m m') (lo : Nat) :
    firstStartCode m n lo = firstStartCode m' n lo := by
  rw [Machine.firstStartCode, Machine.firstStartCode, hm.startCode]

end Reads

section Bodies
variable {m : Memory} {l : Latch} {s : State}

theorem nalReport_withMemory (hm : SameBelow l.len m s.ibuf) {i c e : Nat} (he : e ≤ l.len) :
    nalReport l i c e (withMemory m s) = withMemory m (nalReport l i c e s) :=
  nalReport_congr rfl (fun hlt => hm _ (hlt.trans_le he)) rfl

theorem nalNextBody_withMemory (hm : SameBelow l.len m s.ibuf) :
    nalNextBody l (withMemory m s) = withMemory m (nalNextBody l s) := by
  simp only [nalNextBody, withMemory_ibuf, hm.firstStartCode]
  cases hfirst : firstStartCode s.ibuf l.len l.p0 with
  | none => cases l.eos <;> by_cases h : l.avail = 0 <;> simp only [h] <;> rfl
  | some sc =>
    simp only
    cases hnext : firstStartCode s.ibuf l.len (sc.1 + sc.2) with
    | none =>
      cases l.eos
      · rfl
      · exact nalReport_withMemory hm le_rfl
    | some e =>
      have hat : StartCodeAt s.ibuf l.len e.1 e.2 := (firstStartCode_eq_some_iff.mp hnext).2.1
      exact nalReport_withMemory hm ((Nat.le_add_right _ _).trans hat.lt_len)

/-! ## ADTS_NEXT -/

theorem SameBelow.firstSync {n : Nat} {m m' : Memory} (hm : SameBelow n m m') (lo : Nat) :
    firstSync m n lo = firstSync m' n lo := by
  have hsync : syncAt m n = syncAt m' n := by
    funext i
    by_cases hi : i + 1 < n
    · simp only [syncAt, hm i (by omega), hm (i + 1) hi]
    · simp only [syncAt, hi, false_and]
  rw [Machine.firstSync, Machine.firstSync, hsync]

theorem SameBelow.adtsHeader {n sy : Nat} {m m' : Memory} (hm : SameBelow n m m') (h7 : 7 ≤ n - sy) :
    adtsHeader m sy = adtsHeader m' sy := by
  rw [adtsHeader_eq, adtsHeader_eq, hm (sy + 1) (by omega), hm (sy + 2) (by omega), hm (sy + 3) (by omega),
    hm (sy + 4) (by omega), hm (sy + 5) (by omega), hm (sy + 6) (by omega)]

/-- The CRC of a 9-byte header is within the frame. -/
theorem adtsReport_withMemory (hm : SameBelow l.len m s.ibuf) {sy : Nat}
    (hfl : adtsHeaderLen s.adts.protAbsent ≤ s.adts.frameLength.toNat)
    (hend : s.adts.frameLength.toNat ≤ l.len - sy) :
    adtsReport l sy (withMemory m s) = withMemory m (adtsReport l sy s) := by
  by_cases h9 : adtsHeaderLen s.adts.protAbsent = 9
  · have hcrc : memRead m (sy + 7) 2 = memRead s.ibuf (sy + 7) 2 := hm.memRead (by omega)
    simp only [adtsReport, withMemory, hcrc, complete, consumeTo]
  · simp only [adtsReport, withMemory, h9, if_false, complete, consumeTo]

theorem adtsFromSync_withMemory (hm : SameBelow l.len m s.ibuf) (sy : Nat) :
    adtsFromSync l sy (withMemory m s) = withMemory m (adtsFromSync l sy s) := by
  by_cases h7 : 7 ≤ l.len - sy
  swap
  · rw [adtsFromSync_short (not_le.mp h7), adtsFromSync_short (not_le.mp h7)]
    rfl
  have hheader := hm.adtsHeader h7
  by_cases hfl : adtsHeaderLen (adtsHeader s.ibuf sy).protAbsent ≤ (adtsHeader s.ibuf sy).frameLength.toNat
  swap
  · rw [adtsFromSync_malformed h7 (not_le.mp hfl),
      adtsFromSync_malformed (s := withMemory m s) h7 (by rw [withMemory_ibuf, hheader]; exact not_le.mp hfl),
      withMemory_ibuf, hheader]
    rfl
  by_cases hend : (adtsHeader s.ibuf sy).frameLength.toNat ≤ l.len - sy
  swap
  · rw [adtsFromSync_partial h7 hfl (not_le.mp hend),
      adtsFromSync_partial (s := withMemory m s) h7 (by rwa [withMemory_ibuf, hheader])
        (by rw [withMemory_ibuf, hheader]; exact not_le.mp hend), withMemory_ibuf, hheader]
    rfl
  · rw [adtsFromSync_whole h7 hfl hend,
      adtsFromSync_whole (s := withMemory m s) h7 (by rwa [withMemory_ibuf, hheader])
        (by rwa [withMemory_ibuf, hheader]), withMemory_ibuf, hheader]
    exact adtsReport_withMemory (s := { s with skipped := Word.ofN (sy - l.p0), adts := adtsHeader s.ibuf sy }) hm hfl hend

theorem adtsNextBody_withMemory (hm : SameBelow l.len m s.ibuf) :
    adtsNextBody l (withMemory m s) = withMemory m (adtsNextBody l s) := by
  simp only [adtsNextBody, withMemory_ibuf, hm.firstSync]
  cases firstSync s.ibuf l.len l.p0 with
  | none => cases l.eos <;> by_cases h : l.avail = 0 <;> simp only [h] <;> rfl
  | some sy => exact adtsFromSync_withMemory hm sy

/-! ## FLV_HEADER -/

theorem flvHeaderBody_withMemory (hm : SameBelow l.len m s.ibuf) :
    flvHeaderBody l (withMemory m s) = withMemory m (flvHeaderBody l s) := by
  by_cases h9 : 9 ≤ l.avail
  swap
  · rw [flvHeaderBody_short l s (not_le.mp h9), flvHeaderBody_short l (withMemory m s) (not_le.mp h9)]
    rfl
  have hlen : l.p0 + 9 ≤ l.len := by
    simp only [Latch.avail] at h9
    omega
  have hsame : bytesAt (withMemory m s).ibuf l.p0 3 = bytesAt s.ibuf l.p0 3 := hm.bytesAt (by omega)
  have hoff : memRead (withMemory m s).ibuf (l.p0 + 5) 4 = memRead s.ibuf (l.p0 + 5) 4 := hm.memRead (by omega)
  have hstore : storeFlvHeader l.p0 (withMemory m s) = withMemory m (storeFlvHeader l.p0 s) := by
    simp only [storeFlvHeader, withMemory, hm (l.p0 + 3) (by omega), hm (l.p0 + 4) (by omega),
      hm.memRead (show l.p0 + 5 + 4 ≤ l.len by omega)]
  by_cases hsig : bytesAt s.ibuf l.p0 3 = [0x46#8, 0x4C#8, 0x56#8]
  · rw [flvHeaderBody_stored l s h9 hsig, flvHeaderBody_stored l (withMemory m s) h9 (hsame.trans hsig), hoff, hstore]
    generalize memRead s.ibuf (l.p0 + 5) 4 = d
    split <;> rfl
  · rw [flvHeaderBody_badSignature l s h9 hsig,
      flvHeaderBody_badSignature l (withMemory m s) h9 (by rwa [hsame])]
    rfl

/-! ## FLV_NEXT_TAG -/

theorem flvPayload_withMemory {kind : TagKind} {p ds : Nat} (hm : SameBelow (p + ds) m s.ibuf) :
    flvPayload kind p ds (withMemory m s) = withMemory m (flvPayload kind p ds s) := by
  cases kind with
  | audio =>
    by_cases hds : ds = 0
    · rw [flvPayload_empty _ (.inl rfl) hds, flvPayload_empty _ (.inl rfl) hds]
      rfl
    · rw [flvPayload_audio _ hds, flvPayload_audio _ hds, withMemory_ibuf, hm p (by omega)]
      rfl
  | video =>
    by_cases hds : ds = 0
    · rw [flvPayload_empty _ (.inr rfl) hds, flvPayload_empty _ (.inr rfl) hds]
      rfl
    · rw [flvPayload_video _ hds, flvPayload_video _ hds, withMemory_ibuf, hm p (by omega)]
      rfl
  | script =>
    have hdecode : amfDecode m p ds s.amf s.metaRows = amfDecode s.ibuf p ds s.amf s.metaRows :=
      amfDecodeReadsOnlyItsPayload m s.ibuf p ds s.amf s.metaRows fun k _ hk => hm k hk
    simp only [flvPayload, flvScriptTag, withMemory, hdecode, complete]
  | unknown => rfl

theorem storeTagHeader_withMemory {p0 : Nat} (hm : SameBelow (p0 + 15) m s.ibuf) :
    storeTagHeader p0 (withMemory m s) = withMemory m (storeTagHeader p0 s) := by
  simp only [storeTagHeader, withMemory, flvDataSize, hm.memRead (show p0 + 4 ≤ p0 + 15 by omega),
    hm.memRead (show p0 + 4 + 1 + 3 ≤ p0 + 15 by omega), hm.memRead (show p0 + 4 + 4 + 3 ≤ p0 + 15 by omega),
    hm.memRead (show p0 + 4 + 8 + 3 ≤ p0 + 15 by omega), hm (p0 + 4) (by omega), hm (p0 + 4 + 7) (by omega)]

theorem consumeTag_withMemory (hm : SameBelow (l.p0 + 15) m s.ibuf) :
    consumeTag l (withMemory m s) = withMemory m (consumeTag l s) := by
  simp only [consumeTag, withMemory, consumeTo, flvDataSize, hm.memRead (show l.p0 + 4 ≤ l.p0 + 15 by omega),
    hm.memRead (show l.p0 + 4 + 1 + 3 ≤ l.p0 + 15 by omega)]

theorem SameBelow.mono {n n' : Nat} {m m' : Memory} (hm : SameBelow n' m m') (h : n ≤ n') : SameBelow n m m' :=
  fun k hk => hm k (hk.trans_le h)

theorem flvNextTagBody_withMemory (hm : SameBelow l.len m s.ibuf) :
    flvNextTagBody l (withMemory m s) = withMemory m (flvNextTagBody l s) := by
  by_cases h15 : 15 ≤ l.avail
  swap
  · rw [flvNextTagBody_short (not_le.mp h15), flvNextTagBody_short (not_le.mp h15)]
    rfl
  have havail : l.avail = l.len - l.p0 := rfl
  have hhead : SameBelow (l.p0 + 15) m s.ibuf := hm.mono (by omega)
  have hds : flvDataSize m (l.p0 + 4) = flvDataSize s.ibuf (l.p0 + 4) := hhead.memRead (by omega)
  have hkind : Memory.read m (l.p0 + 4) = Memory.read s.ibuf (l.p0 + 4) := hhead _ (by omega)
  by_cases hwhole : 15 + flvDataSize s.ibuf (l.p0 + 4) ≤ l.avail
  · rw [flvNextTagBody_whole hwhole, flvNextTagBody_whole (s := withMemory m s) (by rwa [withMemory_ibuf, hds]),
      storeTagHeader_withMemory hhead, consumeTag_withMemory (s := storeTagHeader l.p0 s) hhead, withMemory_ibuf, hds,
      hkind]
    exact flvPayload_withMemory (hm.mono (by omega))
  · have hpartial := not_le.mp hwhole
    rw [flvNextTagBody_partial h15 hpartial,
      flvNextTagBody_partial (s := withMemory m s) h15 (by rwa [withMemory_ibuf, hds]),
      storeTagHeader_withMemory hhead, withMemory_ibuf, hds]
    rfl

/-! ## RTP_PARSE -/

theorem SameBelow.rtpHeader {n p0 : Nat} {m m' : Memory} (hm : SameBelow n m m') (h12 : p0 + 12 ≤ n) (k : Nat) :
    rtpHeader m p0 k = rtpHeader m' p0 k := by
  simp only [Machine.rtpHeader, hm p0 (by omega), hm (p0 + 1) (by omega),
    hm.memRead (show p0 + 2 + 2 ≤ n by omega), hm.memRead (show p0 + 4 + 4 ≤ n by omega),
    hm.memRead (show p0 + 8 + 4 ≤ n by omega)]

theorem rtpParseBody_withMemory (hm : SameBelow l.len m s.ibuf) :
    rtpParseBody l (withMemory m s) = withMemory m (rtpParseBody l s) := by
  by_cases hwhole : l.arg ≤ l.avail
  swap
  · rw [rtpParseBody_partial l s (not_le.mp hwhole), rtpParseBody_partial l (withMemory m s) (not_le.mp hwhole)]
    rfl
  by_cases h12 : 12 ≤ l.arg
  swap
  · rw [rtpParseBody_tooShort l s hwhole (not_le.mp h12),
      rtpParseBody_tooShort l (withMemory m s) hwhole (not_le.mp h12)]
    rfl
  have havail : l.avail = l.len - l.p0 := rfl
  have hstore : storeDatagram l (withMemory m s) = withMemory m (storeDatagram l s) := by
    simp only [storeDatagram, withMemory, hm.rtpHeader (show l.p0 + 12 ≤ l.len by omega)]
  rw [rtpParseBody_parsed l s hwhole h12, rtpParseBody_parsed l (withMemory m s) hwhole h12, hstore,
    withMemory_ibuf, hm (l.p0 + 1) (by omega)]
  split <;> rfl

/-! ## TS_NEXT -/

theorem tsReport_withMemory {x : Nat} (hm : SameBelow (x + 188) m s.ibuf) :
    tsReport x (withMemory m s) = withMemory m (tsReport x s) := by
  simp only [tsReport, withMemory, hm (x + 1) (by omega), hm (x + 2) (by omega), hm (x + 3) (by omega), complete]

theorem tsNextBody_withMemory
    (hm : s.tsIter.active = true → SameBelow s.tsIter.endOff.toNat m s.ibuf) :
    tsNextBody (withMemory m s) = withMemory m (tsNextBody s) := by
  cases hactive : s.tsIter.active with
  | false =>
    rw [tsNextBody_idle hactive, tsNextBody_idle (s := withMemory m s) hactive]
    rfl
  | true =>
    by_cases hroom : 188 ≤ s.tsIter.endOff.toNat - s.tsIter.nextOff.toNat
    swap
    · rw [tsNextBody_exhausted hactive (not_le.mp hroom),
        tsNextBody_exhausted (s := withMemory m s) hactive (not_le.mp hroom)]
      rfl
    have hstride : SameBelow (s.tsIter.nextOff.toNat + 188) m s.ibuf := (hm hactive).mono (by omega)
    have hsync := hstride s.tsIter.nextOff.toNat (by omega)
    have hstore : storeStride (withMemory m s) = withMemory m (storeStride s) := by
      simp only [storeStride, withMemory, hsync]
    rw [tsNextBody_stride hactive hroom, tsNextBody_stride (s := withMemory m s) hactive hroom, hstore,
      withMemory_ibuf]
    show (if Memory.read m s.tsIter.nextOff.toNat = _ then _ else _) = _
    rw [hsync]
    split
    · exact tsReport_withMemory (s := storeStride s) hstride
    · rfl

end Bodies

end Sys2Proof.Machine
end

section
/-! Proof of O57, continued: the commands and the step. -/

namespace Sys2Proof.Machine

/-! ## The commands -/

/-- The invariant's bounds, and a second buffer that agrees below LEN: what the comparison of two runs starts from. -/
structure SameBuffer (s : State) (m : Memory) : Prop where
  cursor : s.CursorInv
  same : SameBelow s.len.toNat m s.ibuf

/-- A command but COMPACT and SOFT_RESET does the same with the other buffer, and keeps it. -/
theorem exec_withMemory {i : Instr} {s t : State} {m : Memory} (h : SameBuffer s m) (hcompact : i ≠ .compact)
    (hreset : i ≠ .softReset) (hexec : exec i s = .next t) :
    exec i (withMemory m s) = .next (withMemory m t) := by
  have hm : SameBelow s.latch.len m s.ibuf := h.same
  cases i with
  | nalNext => cases hexec; exact congrArg _ (nalNextBody_withMemory (s := startCommand .nalNext s) hm)
  | adtsNext => cases hexec; exact congrArg _ (adtsNextBody_withMemory (s := startCommand .adtsNext s) hm)
  | flvHeader => cases hexec; exact congrArg _ (flvHeaderBody_withMemory (s := startCommand .flvHeader s) hm)
  | flvNextTag => cases hexec; exact congrArg _ (flvNextTagBody_withMemory (s := startCommand .flvNextTag s) hm)
  | rtpParse => cases hexec; exact congrArg _ (rtpParseBody_withMemory (s := startCommand .rtpParse s) hm)
  | tsNext =>
    cases hexec
    exact congrArg _ (tsNextBody_withMemory (s := startCommand .tsNext s) fun hactive =>
      h.same.mono (h.cursor.iter_end hactive))
  | seek =>
    obtain hle | hlt := le_or_gt s.arg.toNat s.len.toNat
    · obtain rfl := exec_unique hexec (exec_seek_of_le hle)
      exact exec_seek_of_le (s := withMemory m s) hle
    · obtain rfl := exec_unique hexec (exec_seek_of_lt hlt)
      exact exec_seek_of_lt (s := withMemory m s) hlt
  | advance =>
    obtain hle | hlt := le_or_gt s.arg.toNat (s.len.toNat - s.pos.toNat)
    · obtain rfl := exec_unique hexec (exec_advance_of_le hle)
      exact exec_advance_of_le (s := withMemory m s) hle
    · obtain rfl := exec_unique hexec (exec_advance_of_lt hlt)
      exact exec_advance_of_lt (s := withMemory m s) hlt
  | compact => exact absurd rfl hcompact
  | softReset => exact absurd rfl hreset

/-- Two outcomes that differ at most in entries at or above LEN. -/
inductive SameOutcome : Host.Outcome State Fault Refusal → Host.Outcome State Fault Refusal → Prop where
  | next (t : State) (m : Memory) (h : SameBelow t.len.toNat m t.ibuf) :
      SameOutcome (.next t) (.next (withMemory m t))
  | fault (f : Fault) : SameOutcome (.fault f) (.fault f)

theorem exec_sameOutcome {s : State} {m : Memory} (h : SameBuffer s m) (i : Instr) :
    SameOutcome (exec i s) (exec i (withMemory m s)) := by
  obtain ⟨t, ht⟩ := exec_next i s
  by_cases hcompact : i = .compact
  · subst hcompact
    have hlen : (Word.ofN (s.len.toNat - s.pos.toNat)).toNat = s.len.toNat - s.pos.toNat :=
      word_ofN_toNat_of_le (Nat.sub_le s.len.toNat s.pos.toNat)
    refine .next _ (Memory.compacted m s.pos.toNat s.len.toNat) fun k hk => ?_
    have hk' : k < s.len.toNat - s.pos.toNat := hlen ▸ hk
    exact (Memory.read_compacted m hk').trans ((h.same _ (by omega)).trans (Memory.read_compacted s.ibuf hk').symm)
  by_cases hreset : i = .softReset
  · subst hreset
    exact .next _ [] fun _ _ => rfl
  have hframe := exec_frame ht hreset
  rw [exec_withMemory h hcompact hreset ht, ht]
  refine .next t m ?_
  rw [hframe.len hcompact, hframe.ibuf hcompact]
  exact h.same

/-! ## The step -/

theorem engineTurn_sameOutcome {s : State} {m : Memory} (h : SameBuffer s m) :
    SameOutcome (engineTurn s) (engineTurn (withMemory m s)) := by
  cases hbusy : s.status.busy with
  | false =>
    rw [engineTurn_of_idle hbusy, engineTurn_of_idle (s := withMemory m s) hbusy]
    exact .next s m h.same
  | true =>
    rw [engineTurn_of_busy hbusy, engineTurn_of_busy (s := withMemory m s) hbusy]
    show SameOutcome (runCommandWord (s.status.lastOp.setWidth 32) s)
      (runCommandWord (s.status.lastOp.setWidth 32) (withMemory m s))
    cases hdec : decode (s.status.lastOp.setWidth 32) with
    | ok i =>
      rw [runCommandWord_of_decode _ hdec, runCommandWord_of_decode _ hdec]
      exact exec_sameOutcome h i
    | error e =>
      simp only [runCommandWord, hdec]
      exact .next (completeReserved s) m h.same

/-! ## The host's accesses -/

theorem readReg_withMemory (m : Memory) (s : State) (r : Reg) : readReg (withMemory m s) r = readReg s r := by
  cases r <;> rfl

theorem hostReadReg_withMemory (m : Memory) (s : State) (r : Reg) :
    hostReadReg r (withMemory m s) = withMemory m (hostReadReg r s) := by
  simp only [hostReadReg, readReg_withMemory, withMemory_status]
  split <;> rfl

/-- The window shows no entry at or above LEN (10_state R41). -/
theorem readWindow_withMemory {m : Memory} {s : State} (hm : SameBelow s.len.toNat m s.ibuf) (i : Nat) :
    readWindow (withMemory m s) i = readWindow s i :=
  ite_congr rfl (fun hi => congrArg _ (hm i hi)) fun _ => rfl

theorem hostReadWindow_withMemory {m : Memory} {s : State} (hm : SameBelow s.len.toNat m s.ibuf) (i : Nat) :
    hostReadWindow i (withMemory m s) = withMemory m (hostReadWindow i s) := by
  simp only [hostReadWindow, readWindow_withMemory hm, withMemory_status]
  split <;> rfl

theorem hostRead_sameOutcome {m : Memory} {s : State} (hm : SameBelow s.len.toNat m s.ibuf) (off : Word) :
    SameOutcome (hostRead off s) (hostRead off (withMemory m s)) := by
  unfold hostRead
  rw [withMemory_cap]
  split
  next r _ =>
    obtain ⟨v, n, hr⟩ := hostReadReg_block r s
    rw [hostReadReg_withMemory, hr]
    exact .next _ m hm
  next i _ =>
    obtain ⟨v, n, hr⟩ := hostReadWindow_block i s
    rw [hostReadWindow_withMemory hm, hr]
    exact .next _ m hm
  · exact .fault _

/-- The states with the two buffers, after the same write. -/
def SameWritten (t t' : State) : Prop := ∃ m, t' = withMemory m t ∧ SameBelow t.len.toNat m t.ibuf

/-- An append writes the same byte at LEN of either buffer. -/
theorem appendByte_sameWritten {m : Memory} {s : State} (hwf : Memory.wf s.ibuf) (hwf' : Memory.wf m)
    (hm : SameBelow s.len.toNat m s.ibuf) (b : Byte) :
    SameWritten (appendByte b s) (appendByte b (withMemory m s)) := by
  refine ⟨Memory.write m s.len.toNat b, rfl, fun k hk => ?_⟩
  have hlen : k < s.len.toNat + 1 := hk.trans_le (Nat.mod_le _ _)
  rw [appendByte_ibuf, Memory.read_write hwf', Memory.read_write hwf]
  split
  · rfl
  · exact hm k (by omega)

theorem writeReg_sameWritten {m : Memory} {s : State} (hwf : Memory.wf s.ibuf) (hwf' : Memory.wf m)
    (hm : SameBelow s.len.toNat m s.ibuf) (r : Reg) (v : Word) :
    SameWritten (writeReg r v s) (writeReg r v (withMemory m s)) := by
  cases r with
  | dataIn =>
    by_cases hfull : s.len = s.cap
    · exact ⟨m, (writeDataIn_full (s := withMemory m s) v hfull).trans
        (congrArg (withMemory m) (writeDataIn_full v hfull)).symm, by rw [writeReg, writeDataIn_full v hfull]; exact hm⟩
    · rw [writeReg, writeReg, writeDataIn_room v hfull, writeDataIn_room (s := withMemory m s) v hfull]
      exact appendByte_sameWritten hwf hwf' hm _
  | _ => exact ⟨m, rfl, hm⟩

theorem hostWriteReg_sameWritten {m : Memory} {s : State} (hwf : Memory.wf s.ibuf) (hwf' : Memory.wf m)
    (hm : SameBelow s.len.toNat m s.ibuf) (r : Reg) (v : Word) :
    SameWritten (hostWriteReg r v s) (hostWriteReg r v (withMemory m s)) := by
  by_cases hs : r = .status
  · subst hs
    exact ⟨m, rfl, hm⟩
  by_cases hr : regWritable r = true
  · cases hbusy : s.status.busy with
    | true =>
      rw [hostWriteReg_of_busy v hs hr hbusy, hostWriteReg_of_busy (s := withMemory m s) v hs hr hbusy]
      exact ⟨m, rfl, hm⟩
    | false =>
      rw [hostWriteReg_of_idle v hs hr hbusy, hostWriteReg_of_idle (s := withMemory m s) v hs hr hbusy]
      exact writeReg_sameWritten hwf hwf' hm r v
  · have hignored : ∀ u, hostWriteReg r v u = u := fun u => by simp [hostWriteReg, hs, hr]
    rw [hignored, hignored]
    exact ⟨m, rfl, hm⟩

theorem hostWrite_sameOutcome {m : Memory} {s : State} (hwf : Memory.wf s.ibuf) (hwf' : Memory.wf m)
    (hm : SameBelow s.len.toNat m s.ibuf) (off v : Word) :
    SameOutcome (hostWrite off v s) (hostWrite off v (withMemory m s)) := by
  unfold hostWrite
  rw [withMemory_cap]
  split
  next r _ =>
    obtain ⟨m', heq, hm'⟩ := hostWriteReg_sameWritten hwf hwf' hm r v
    rw [heq]
    exact .next (respond .writeOk (hostWriteReg r v s)) m' hm'
  · exact .fault _
  · exact .fault _

theorem hostAccess_sameOutcome {m : Memory} {s : State} (hwf : Memory.wf s.ibuf) (hwf' : Memory.wf m)
    (hm : SameBelow s.len.toNat m s.ibuf) (a : BusAccess) :
    SameOutcome (hostAccess a s) (hostAccess a (withMemory m s)) := by
  unfold hostAccess
  split
  · exact .fault _
  · cases a with
    | read w off => exact hostRead_sameOutcome hm off
    | write w off v => exact hostWrite_sameOutcome hwf hwf' hm off v

/-! ## The step -/

theorem State.CursorInv.inputs {s : State} (h : s.CursorInv) (rest : List Input) :
    State.CursorInv { s with inputs := rest } :=
  ⟨h.cap_min, h.cap_max, h.pos_le_len, h.len_le_cap, h.iter_order, h.iter_end⟩

theorem SameBuffer.inputs {s : State} {m : Memory} (h : SameBuffer s m) (rest : List Input) :
    SameBuffer { s with inputs := rest } m := ⟨h.cursor.inputs rest, h.same⟩

theorem step_sameOutcome {s : State} {m : Memory} (h : SameBuffer s m) (hwf : Memory.wf s.ibuf)
    (hwf' : Memory.wf m) : SameOutcome (step s) (step (withMemory m s)) := by
  unfold step
  rw [withMemory_inputs]
  split
  next => exact engineTurn_sameOutcome h
  next rest _ => exact engineTurn_sameOutcome (h.inputs rest)
  next a rest _ => exact hostAccess_sameOutcome (s := { s with inputs := rest }) hwf hwf' h.same a
  next rest _ =>
    cases hbusy : s.status.busy with
    | true =>
      rw [withMemory_status, hbusy]
      exact engineTurn_sameOutcome h
    | false =>
      rw [withMemory_status, hbusy, hostPoll_eq rest s hbusy, hostPoll_eq rest (withMemory m s) hbusy]
      exact .next _ m h.same
  next rest _ => exact .next (resetBlock { s with inputs := rest }) [] fun _ _ => rfl

/-- Settles O57, from `step_sameOutcome`. -/
theorem entriesAboveLenAreUnobservable : Obligations.EntriesAboveLenAreUnobservable := by
  intro s m hcursor hwf hwf' hm
  have hsame : SameOutcome (step s) (step { s with ibuf := m }) := step_sameOutcome ⟨hcursor, hm⟩ hwf hwf'
  revert hsame
  generalize step s = x
  generalize step { s with ibuf := m } = y
  intro hsame
  cases hsame with
  | next t m' hm' => exact ⟨rfl, hm'⟩
  | fault f => rfl

end Sys2Proof.Machine
end
